-- ==== Sys2Proof/Word.lean ====
section
/-! DEFINITION. The words of the Line Driver: widths (spec/00_scope.md R4), levels and directions (R5). -/

namespace Sys2Proof

/-- The unit of transfer, always 8 bits (spec/20_memory.md R50). -/
abbrev Byte := BitVec 8

/-- A pin identifier, `PIN_W = 8` bits (spec/10_state.md R11). -/
abbrev PinId := BitVec 8

/-- A baud rate or a bit-period, `BAUD_W = BP_W = 32` bits (spec/00_scope.md R4). -/
abbrev Word32 := BitVec 32

/-- A reading of the microsecond clock, `TIME_W = 64` bits (spec/10_state.md R19). -/
abbrev Time := BitVec 64

/-- A command word, 34 bits (spec/30_encoding.md R71). -/
abbrev CmdWord := BitVec 34

/-- A wire frame as a word, 10 bits, the first cell leftmost (spec/30_encoding.md R74). -/
abbrev FrameWord := BitVec 10

/-- A level on the wire or in the latch: `Low = 0`, `High = 1` (spec/00_scope.md R5). -/
inductive Level where
  | low
  | high
deriving DecidableEq, Repr, Inhabited

/-- A direction of the pin: `Input = 0`, `Output = 1` (spec/00_scope.md R5). -/
inductive Dir where
  | input
  | output
deriving DecidableEq, Repr, Inhabited

/-- The bit a level stands for (spec/00_scope.md R5, spec/30_encoding.md R75: level = bit value). -/
def Level.bit : Level → Bool
  | .low => false
  | .high => true

/-- The level a bit stands for (spec/00_scope.md R5). -/
def Level.ofBit : Bool → Level
  | false => .low
  | true => .high

/-- The number of a direction (spec/00_scope.md R5). -/
def Dir.bit : Dir → Bool
  | .input => false
  | .output => true

/-- The direction of a number (spec/00_scope.md R5). -/
def Dir.ofBit : Bool → Dir
  | false => .input
  | true => .output

@[simp] theorem Level.bit_ofBit (b : Bool) : (Level.ofBit b).bit = b := by cases b <;> rfl
@[simp] theorem Level.ofBit_bit (l : Level) : Level.ofBit l.bit = l := by cases l <;> rfl
@[simp] theorem Dir.bit_ofBit (b : Bool) : (Dir.ofBit b).bit = b := by cases b <;> rfl
@[simp] theorem Dir.ofBit_bit (d : Dir) : Dir.ofBit d.bit = d := by cases d <;> rfl

end Sys2Proof
end

