-- ==== Sys2Proof/Config.lean ====
section
/-! DEFINITION. What is fixed for the machine (spec/00_scope.md R4) and the values nothing fixes. -/

namespace Sys2Proof.Config

/-- Dividend of the bit-period computation (spec/00_scope.md R4). -/
def usecPerSec : Nat := 1_000_000

/-- Data cells per frame (spec/00_scope.md R4). -/
def dataBits : Nat := 8

/-- Start cells per frame (spec/00_scope.md R4). -/
def startCells : Nat := 1

/-- Stop cells per frame (spec/00_scope.md R4). -/
def stopCells : Nat := 1

/-- Cells per frame (spec/00_scope.md R4). -/
def frameCells : Nat := startCells + dataBits + stopCells

/-- The start-detection timeout in bit-periods (spec/00_scope.md R4, spec/90_conflicts.md C5). -/
def timeoutFactor : Nat := 10

/-- Least baud rate in contract (spec/00_scope.md R4). -/
def baudMin : Nat := 1

/-- Greatest baud rate in contract (spec/00_scope.md R4, spec/90_conflicts.md C6). -/
def baudMax : Nat := 999_999

/-- Microseconds between two polls of start detection (spec/43_timing_primitives.md R148). -/
def pollStep : Nat := 1

/-- Greatest extra time of a delay with interrupts suppressed (spec/43_timing_primitives.md R141). -/
def jMasked : Nat := 0

/-- FREE VALUE. The environment's choice at the k-th `draw` (spec/00_scope.md section 5), before it is
brought under the draw's bound. It has no body: no proof can know it (log 5). -/
opaque draw : Nat → Nat

/-- FREE VALUE. The bit the wire carries at a microsecond at which the environment drives it while the
driver drives it too (spec/20_memory.md R48, spec/93_implementation_defined.md X6; log 6). -/
opaque contentionBit : Nat → Bool

end Sys2Proof.Config
end

