-- ==== Sys2Proof/Syntax.lean ====
section
/-! DEFINITION. The operations and micro-operations (spec/30_encoding.md R70, R83), one constructor per row of
spec/opcode_table.json, and the three kinds of word that encode them (R71, R74, and the cells of R74). -/

namespace Sys2Proof

/-- One row of spec/opcode_table.json. -/
inductive Instr where
  /-- `BIND pin` (spec/40_configuration.md R90). -/
  | bind (pin : PinId)
  /-- `CONFIGURE baud` (spec/40_configuration.md R93). -/
  | configure (baud : Word32)
  /-- `WRITE byte` (spec/41_transmit.md R100). -/
  | write (byte : Byte)
  /-- `READ` (spec/42_receive.md R120). -/
  | read
  /-- The wire frame of a byte (spec/30_encoding.md R74). -/
  | frame (byte : Byte)
  /-- The start condition (spec/41_transmit.md R101). -/
  | start
  /-- A logical 1 on the wire (spec/41_transmit.md R102). -/
  | bitw1
  /-- A logical 0 on the wire (spec/41_transmit.md R103). -/
  | bitw0
  /-- The stop condition (spec/41_transmit.md R105). -/
  | stop
  /-- One turn of start detection (spec/42_receive.md R121). -/
  | poll
  /-- The alignment delay (spec/42_receive.md R124). -/
  | align
  /-- The bit-read primitive (spec/42_receive.md R125). -/
  | bitr
deriving DecidableEq, Repr

/-- Which kind of cell a micro-operation's one-bit code stands for. The table gives a cell only its level; its
place in the frame is what tells two cells of one level apart (log 11). -/
inductive CellSlot where
  /-- A framing cell the transmitter drives: cell 0 (start, Low) or cell 9 (stop, High). -/
  | framing
  /-- A data cell the transmitter drives. -/
  | txData
  /-- The start cell the receiver watches for. -/
  | rxPoll
  /-- The time the receiver lets pass to align. -/
  | rxAlign
  /-- A data cell the receiver samples. -/
  | rxData
deriving DecidableEq, Repr

/-- What a decoder is given: a command word, a frame on the wire, or one cell in its place. -/
inductive Code where
  /-- Format `CMD` (spec/30_encoding.md R71). -/
  | cmd (w : CmdWord)
  /-- Format `WIRE` (spec/30_encoding.md R74). -/
  | wire (w : FrameWord)
  /-- Format `CELL`: one cell's level and its place (spec/30_encoding.md R83). -/
  | cell (slot : CellSlot) (level : Level)
deriving DecidableEq, Repr

/-- The mnemonic of an instruction's row in spec/opcode_table.json. -/
def Instr.mnemonic : Instr → String
  | .bind _ => "BIND"
  | .configure _ => "CONFIGURE"
  | .write _ => "WRITE"
  | .read => "READ"
  | .frame _ => "FRAME"
  | .start => "START"
  | .bitw1 => "BITW1"
  | .bitw0 => "BITW0"
  | .stop => "STOP"
  | .poll => "POLL"
  | .align => "ALIGN"
  | .bitr => "BITR"

/-- How many bits a code has: the table's `width` of its format. -/
def Code.width : Code → Nat
  | .cmd _ => 34
  | .wire _ => 10
  | .cell _ _ => 1

/-- How many bits the table gives the row of an instruction. -/
def Instr.tableWidth : Instr → Nat
  | .bind _ | .configure _ | .write _ | .read => 34
  | .frame _ => 10
  | .start | .bitw1 | .bitw0 | .stop | .poll | .align | .bitr => 1

end Sys2Proof
end

