-- ==== Sys2Proof/Machine/State.lean ====
section
/-! DEFINITION. Everything the spec gives the machine, as plain data (spec/10_state.md, spec/20_memory.md R62),
the state after reset (spec/10_state.md R29), and the reasons a step can stop. -/

namespace Sys2Proof.Machine

/-- The sequencer's control position (spec/10_state.md R20). -/
inductive Phase where
  | unbound
  | idle
  | wStart
  | wBit
  | wStop
  | rPoll
  | rAlign
  | rBit
  | faulted
deriving DecidableEq, Repr

/-- What the environment does to the wire at a microsecond (spec/20_memory.md R45, R46, R48). -/
inductive Drive where
  /-- Nobody but a pull resistor holds the wire. -/
  | released (pull : Level)
  /-- The peer, or anything else, drives the wire. -/
  | driven (level : Level)
deriving DecidableEq, Repr

/-- From microsecond `time` on the environment does `drive`. -/
structure Edge where
  time : Nat
  drive : Drive
deriving DecidableEq, Repr

/-- `ENV` (spec/00_scope.md R4) as data: what the environment does from the beginning, and the changes in order. -/
structure Env where
  first : Drive
  edges : List Edge
deriving DecidableEq, Repr

/-- The parameters of the step relation (spec/10_state.md R31); no step writes them (log 4). -/
structure Platform where
  /-- `PINMAP` (spec/00_scope.md R4): the pins whose lookup answers `fail`. -/
  pinFail : List PinId
  /-- The pins other driver instances are bound to (spec/20_memory.md R60, RF9; log 7). -/
  otherPins : List PinId
  /-- `ENV` (spec/00_scope.md R4). -/
  env : Env
  /-- `J_OPEN` (spec/00_scope.md R4). -/
  jOpen : Nat
deriving DecidableEq, Repr

/-- A command the caller will issue: not before `due` and not before the response to the one before it
(spec/70_reset_and_hazards.md R211; log 8). -/
structure Issue where
  due : Time
  word : CmdWord
deriving DecidableEq, Repr

/-- An assertion of `rst` to come (spec/70_reset_and_hazards.md R190): from microsecond `start` until it is released
at microsecond `release`, which may be the same one (log 9). -/
structure ResetSpan where
  start : Time
  release : Time
deriving DecidableEq, Repr

/-- One HAL or mask operation, as a trace writes it (spec/00_scope.md section 5), and the reset input. -/
inductive PinOp where
  | mask
  | unmask
  | setDirection (d : Dir)
  | setLevel (l : Level)
  | sample (l : Level)
  | reset
deriving DecidableEq, Repr

/-- `t: OP` (spec/00_scope.md section 5): an operation and the microsecond at which it takes effect. -/
structure PinEvent where
  time : Time
  op : PinOp
deriving DecidableEq, Repr

/-- The outcome codes of `rsp_err` (spec/60_exceptions.md R165). Codes 2 and 3 are never produced and have no
constructor (spec/93_implementation_defined.md X9). -/
inductive RspErr where
  | ok
  | eCfg
deriving DecidableEq, Repr

/-- The state of the Line Driver, its ports and its surroundings. -/
structure State where
  /-- `PHASE` (spec/10_state.md R20). -/
  phase : Phase
  /-- `PIN` (spec/10_state.md R11). -/
  pin : PinId
  /-- `BOUND` (spec/10_state.md R12). -/
  bound : Bool
  /-- `BP` (spec/10_state.md R13, R14). -/
  bp : Word32
  /-- `CONFIGURED` (spec/10_state.md R14). -/
  configured : Bool
  /-- `DIR` (spec/10_state.md R15). -/
  dir : Dir
  /-- `OLAT` (spec/10_state.md R16). -/
  olat : Level
  /-- `IM` (spec/10_state.md R18). -/
  im : Bool
  /-- `now` (spec/10_state.md R19). -/
  now : Time
  /-- `IDX` (spec/10_state.md R21). -/
  idx : BitVec 4
  /-- `TXB` (spec/10_state.md R22). -/
  txb : Byte
  /-- `RXB` (spec/10_state.md R23). -/
  rxb : Byte
  /-- `T0` (spec/10_state.md R24). -/
  t0 : Time
  /-- `STATUS.CFGF` (spec/10_state.md R25). -/
  cfgf : Bool
  /-- `STATUS.TO` (spec/10_state.md R25, spec/42_receive.md R133). -/
  timedOut : Bool
  /-- `rsp_valid` (spec/20_memory.md R62, spec/30_encoding.md R73). -/
  rspValid : Bool
  /-- `rsp_data` (spec/30_encoding.md R73). -/
  rspData : Byte
  /-- `rsp_err` (spec/60_exceptions.md R165). -/
  rspErr : RspErr
  /-- `cmd_valid`, an input (spec/20_memory.md R62). -/
  cmdValid : Bool
  /-- `cmd`, an input (spec/20_memory.md R62). -/
  cmd : CmdWord
  /-- `rst`, an input (spec/20_memory.md R62): whether it is asserted, and if so at which microsecond it is released
  (spec/70_reset_and_hazards.md R190; log 9). -/
  rst : Option Time
  /-- The assertions of `rst` to come, in order (spec/70_reset_and_hazards.md R190; log 9). -/
  rstAt : List ResetSpan
  /-- The caller's program (spec/70_reset_and_hazards.md R211; log 8). -/
  program : List Issue
  /-- The parameters of the step relation (spec/10_state.md R31). -/
  plat : Platform
  /-- MODEL'S OWN: how many draws have been made (log 5). -/
  draws : Nat
  /-- MODEL'S OWN: whether a step at `W_START` shows the whole frame (log 10). -/
  wholeFrame : Bool
  /-- MODEL'S OWN: the operations performed, newest first (log 17). -/
  trace : List PinEvent
deriving DecidableEq, Repr

/-- The parameters at reset: every lookup succeeds, no other driver, a pulled-up wire nobody drives, no
preemption. DESIGN CHOICE, unsafe (log 4, log 7). -/
def Platform.reset : Platform where
  pinFail := []
  otherPins := []
  env := { first := .released .high, edges := [] }
  jOpen := 0

/-- The machine right after reset (spec/10_state.md R29, spec/70_reset_and_hazards.md R190). `PIN`, `BP`, `OLAT`,
`IDX`, `TXB`, `RXB`, `T0` are unspecified there; their values here are the model's (log 1), as is `now` (log 2). -/
def State.reset : State where
  phase := .unbound
  pin := 0
  bound := false
  bp := 0
  configured := false
  dir := .input
  olat := .low
  im := false
  now := 0
  idx := 0
  txb := 0
  rxb := 0
  t0 := 0
  cfgf := false
  timedOut := false
  rspValid := false
  rspData := 0
  rspErr := .ok
  cmdValid := false
  cmd := 0
  rst := none
  rstAt := []
  program := []
  plat := Platform.reset
  draws := 0
  wholeFrame := false
  trace := []

/-- The faults of the machine. -/
inductive Fault where
  /-- Raised by a step of a block that is `FAULTED` and to which neither a reset nor a command comes: the run has
  ended by fault (spec/60_exceptions.md R171, spec/70_reset_and_hazards.md R211). Safe: the block would stand
  still for ever (log 14). -/
  | configurationFailure
  /-- Raised by `memWrite` at `PINLVL`, which is read-only (spec/20_memory.md R40). No operation does it. Safe. -/
  | readOnlyPinRegister
deriving DecidableEq, Repr

/-- What the machine gives no meaning to (spec/60_exceptions.md R166). Every one is safe: the model stops where
the spec puts the run outside the contract. -/
inductive Refusal where
  /-- Raised by `exec` for an instruction without a meaning. Safe. No arm raises it. -/
  | notModelled (mnemonic : String)
  /-- RF1: a command while `STATUS.BUSY = 1`. Raised by `fetch` and by the four commands. Safe. -/
  | busy
  /-- RF2: a command while `PHASE = FAULTED`. Raised by `fetch` and by the four commands. Safe. -/
  | faulted
  /-- RF3: BIND while bound. Raised by BIND. Safe. -/
  | alreadyBound
  /-- RF4: CONFIGURE, WRITE, READ while not bound. Raised by them. Safe. -/
  | notBound
  /-- RF5: WRITE, READ while not configured. Raised by them. Safe. -/
  | notConfigured
  /-- RF6: CONFIGURE with `baud = 0`. Raised by CONFIGURE. Safe. -/
  | baudZero
  /-- RF7: CONFIGURE with `baud >= 1_000_000`. Raised by CONFIGURE. Safe. -/
  | baudTooHigh
  /-- RF8: a command word with a nonzero reserved bit. Raised by `step`. Safe. -/
  | reservedBits
  /-- RF9: BIND of a pin another driver instance is bound to, where the lookup of the pin succeeds. Raised by BIND.
  Safe. -/
  | pinShared
  /-- RF10: another agent drives the wire while `DIR = Output`. Raised by every wait made while the pin is an
  output. Safe. -/
  | contention
  /-- A micro-operation outside the `PHASE` that selects it (spec/30_encoding.md R83: "not independently
  callable"). Raised by the micro-operations and FRAME. Safe. -/
  | notCallable
  /-- A frame or a cell that no instruction has (spec/30_encoding.md R74). Raised by `step`; the sequencer never
  makes one. Safe. -/
  | notACode
deriving DecidableEq, Repr

/-- How a wait ends: it has lasted its time, a reset cut it, or the wire was contended. -/
inductive Held where
  | done (s : State)
  | cut (s : State)
  | contention
deriving DecidableEq, Repr

/-- What the sequencer finds to do (spec/10_state.md R20, spec/20_memory.md R62). -/
inductive Fetched where
  /-- Run this code in this state. -/
  | run (c : Code) (s : State)
  /-- A command is presented that the block does not accept. -/
  | refuse (r : Refusal)
  /-- Nothing to do: time passes. -/
  | idle
  /-- The run has ended by fault. -/
  | ended
deriving DecidableEq, Repr

end Sys2Proof.Machine
end

