-- ==== Sys2Proof/Machine/Flags.lean ====
section
/-! DEFINITION. The status flags and the outputs of the command port (spec/10_state.md R25,
spec/20_memory.md R62, spec/60_exceptions.md R165). -/

namespace Sys2Proof.Machine

/-- A transfer is in progress at this position: neither `UNBOUND`, `IDLE` nor `FAULTED` (spec/10_state.md R25). -/
def Phase.inTransfer : Phase → Bool
  | .unbound => false
  | .idle => false
  | .faulted => false
  | .wStart => true
  | .wBit => true
  | .wStop => true
  | .rPoll => true
  | .rAlign => true
  | .rBit => true

/-- `STATUS.BUSY` (spec/10_state.md R25). -/
def State.busy (s : State) : Bool := s.phase.inTransfer

/-- `cmd_ready = not STATUS.BUSY and PHASE /= FAULTED` (spec/20_memory.md R62). -/
def State.cmdReady (s : State) : Bool := !s.busy && decide (s.phase ≠ .faulted)

/-- `status[2:0] = {TO, CFGF, BUSY}` (spec/20_memory.md R62). -/
def State.status (s : State) : BitVec 3 :=
  BitVec.ofBool s.timedOut ++ BitVec.ofBool s.cfgf ++ BitVec.ofBool s.busy

/-- The number of an outcome on `rsp_err[1:0]` (spec/60_exceptions.md R165). -/
def RspErr.code : RspErr → BitVec 2
  | .ok => 0#2
  | .eCfg => 1#2

/-- `pin_dir` (spec/20_memory.md R62). -/
def State.pinDir (s : State) : Bool := s.dir.bit

/-- `pin_out` (spec/20_memory.md R62). -/
def State.pinOut (s : State) : Bool := s.olat.bit

/-- `irq_mask` (spec/20_memory.md R62). -/
def State.irqMask (s : State) : Bool := s.im

/-- The level of `rst` (spec/20_memory.md R62): whether it is asserted. -/
def State.rstLevel (s : State) : Bool := s.rst.isSome

/-- The response pulse: an operation completes with this datum and outcome (spec/30_encoding.md R73). -/
def State.respond (s : State) (data : Byte) (err : RspErr) : State :=
  { s with rspValid := true, rspData := data, rspErr := err }

/-- The pulse is over: `rsp_valid` stands for one step (spec/20_memory.md R62; log 19). -/
def State.endPulse (s : State) : State := { s with rspValid := false }

end Sys2Proof.Machine
end

