-- ==== Sys2Proof/Machine/Operands.lean ====
section
/-! DEFINITION. Operand assembly and arithmetic (spec/30_encoding.md R76 to R79, R86). -/

namespace Sys2Proof.Machine

/-- `1_000_000 / baud`, unsigned, truncating (spec/30_encoding.md R78). -/
def bitPeriod (baud : Word32) : Word32 := BitVec.ofNat 32 Config.usecPerSec / baud

/-- `ALIGN = BP + BP/2`, truncating, on 32 bits (spec/30_encoding.md R79, R86). -/
def alignDelay (bp : Word32) : Word32 := bp + bp / 2#32

/-- `TMO = 10 * BP` on 32 bits (spec/30_encoding.md R79, R86). -/
def timeout (bp : Word32) : Word32 := BitVec.ofNat 32 Config.timeoutFactor * bp

/-- `TXB[i]` as the level of its cell (spec/30_encoding.md R75, R76). -/
def txBit (txb : Byte) (idx : BitVec 4) : Level := Level.ofBit (txb.getLsbD idx.toNat)

/-- `RXB | (zext_8(v) << i)` (spec/30_encoding.md R77). -/
def rxInsert (rxb : Byte) (v : Level) (idx : BitVec 4) : Byte :=
  rxb ||| ((BitVec.ofBool v.bit).setWidth 8 <<< idx.toNat)

end Sys2Proof.Machine
end

