-- ==== Sys2Proof/Machine/Ops.lean ====
section
/-! DEFINITION. The pin register space and the line (spec/20_memory.md), the primitives the micro-operations are
made of (spec/43_timing_primitives.md), the fatal outcome and the reset that alone leaves it
(spec/60_exceptions.md R170, R171; spec/70_reset_and_hazards.md R190). -/

namespace Sys2Proof.Machine

/-! ### The environment and the line -/

/-- Whether the environment itself drives the wire. -/
def Drive.drives : Drive → Bool
  | .released _ => false
  | .driven _ => true

/-- The level the environment gives the wire when the driver does not drive it. -/
def Drive.level : Drive → Level
  | .released pull => pull
  | .driven level => level

/-- What the environment does at microsecond `t`, when it does `d` until the first of the edges. -/
def driveAt (d : Drive) : List Edge → Nat → Drive
  | [], _ => d
  | e :: es, t => if t < e.time then d else driveAt e.drive es t

/-- Whether the environment drives the wire at some microsecond `t` with `lo <= t < hi`. -/
def drivesIn (d : Drive) : List Edge → Nat → Nat → Bool
  | [], lo, hi => d.drives && decide (lo < hi)
  | e :: es, lo, hi => (d.drives && decide (lo < min hi e.time)) || drivesIn e.drive es (max lo e.time) hi

/-- What the environment does at microsecond `t`. -/
def Env.at (env : Env) (t : Nat) : Drive := driveAt env.first env.edges t

/-- `ENV(t)` (spec/00_scope.md R4). -/
def Env.levelAt (env : Env) (t : Nat) : Level := (env.at t).level

/-- Whether the environment drives the wire at some microsecond of `[lo, hi)` (spec/20_memory.md R48). -/
def Env.drivenIn (env : Env) (lo hi : Nat) : Bool := drivesIn env.first env.edges lo hi

/-- The level on the wire at microsecond `t` for a pin in this direction with this latch
(spec/20_memory.md R45). When both drive it, any value (R48): a free value (log 6). -/
def wireLevel (env : Env) (dir : Dir) (olat : Level) (t : Nat) : Level :=
  match dir with
  | .input => env.levelAt t
  | .output => if (env.at t).drives then Level.ofBit (Config.contentionBit t) else olat

/-- `line(now)`, which is `PINLVL` (spec/20_memory.md R45, spec/10_state.md R17). -/
def State.line (s : State) : Level := wireLevel s.plat.env s.dir s.olat s.now.toNat

/-! ### The pin register space -/

/-- The three locations of the pin register space (spec/20_memory.md R40). -/
inductive PinReg where
  | dir
  | olat
  | pinlvl
deriving DecidableEq, Repr

/-- `MemRead(r, 1)` (spec/00_scope.md section 5). -/
def State.memRead (s : State) : PinReg → Bool
  | .dir => s.dir.bit
  | .olat => s.olat.bit
  | .pinlvl => s.line.bit

/-- `MemWrite(r, 1, v)` (spec/00_scope.md section 5): `PINLVL` is read-only (spec/20_memory.md R40). -/
def State.memWrite (s : State) (r : PinReg) (v : Bool) : Except Fault State :=
  match r with
  | .dir => .ok { s with dir := Dir.ofBit v }
  | .olat => .ok { s with olat := Level.ofBit v }
  | .pinlvl => .error .readOnlyPinRegister

/-- Write an operation down in the trace, at this microsecond (log 17). -/
def State.note (s : State) (op : PinOp) : State := { s with trace := ⟨s.now, op⟩ :: s.trace }

/-- `setDirection(d)` (spec/20_memory.md R41). -/
def State.setDirection (s : State) (d : Dir) : State := { s with dir := d }.note (.setDirection d)

/-- `setLevel(l)` (spec/20_memory.md R42). -/
def State.setLevel (s : State) (l : Level) : State := { s with olat := l }.note (.setLevel l)

/-- `readLevel()`: the level it returns (spec/20_memory.md R43). -/
def State.readLevel (s : State) : Level := s.line

/-- `readLevel()`: the state it leaves, in which only the trace tells of it (spec/20_memory.md R43). -/
def State.sampled (s : State) : State := s.note (.sample s.readLevel)

/-! ### The critical section -/

/-- `MASK()` (spec/43_timing_primitives.md R142). -/
def State.mask (s : State) : State := { s with im := true }.note .mask

/-- `UNMASK()`, unconditional (spec/43_timing_primitives.md R142). -/
def State.unmask (s : State) : State := { s with im := false }.note .unmask

/-! ### Reset and the fatal outcome -/

/-- The block's state right after reset (spec/10_state.md R29, spec/70_reset_and_hazards.md R190): the column
"after reset" for every element of the block; `now`, the parameters, the caller's inputs and the model's own
fields are not the block's. Unspecified elements take the values of `State.reset` (log 1). DESIGN CHOICE, unsafe
(log 23): no response to an abandoned operation ever comes, and the caller goes on all the same: what is left of
`program` and what stands at the port stay, and the abandoned command is not issued again. The caller of a `FAULTED`
block goes on after its reset in the same way (log 23, log 14). -/
def State.resetBlock (s : State) : State :=
  { State.reset with
    now := s.now
    cmdValid := s.cmdValid
    cmd := s.cmd
    rst := s.rst
    rstAt := s.rstAt
    program := s.program
    plat := s.plat
    draws := s.draws
    wholeFrame := s.wholeFrame
    trace := s.trace }

/-- The reset input is asserted at this microsecond, until the release its span names: whatever is in progress is
abandoned (spec/70_reset_and_hazards.md R190). -/
def State.takeReset (s : State) : State :=
  { s.resetBlock with rst := s.rstAt.head?.map ResetSpan.release, rstAt := s.rstAt.tail }.note .reset

/-- The reset input is asserted, or its next assertion is due: the block runs nothing and accepts nothing
(spec/70_reset_and_hazards.md R190; log 9). -/
def State.resetDue (s : State) : Bool :=
  s.rst.isSome ||
    match s.rstAt with
    | [] => false
    | r :: _ => decide (r.start.toNat ≤ s.now.toNat)

/-- What a step of a block under reset does (spec/70_reset_and_hazards.md R190): the assertion that is due is taken;
while it stands a microsecond passes over the block as it is after reset; at the release the block is as it is after
reset and the input falls (log 9). -/
def State.underReset (s : State) : State :=
  match s.rst with
  | none => s.takeReset
  | some release =>
    if release.toNat ≤ s.now.toNat then { s.resetBlock with rst := none }
    else { s.resetBlock with now := s.now + 1 }

/-- TAKING THE ONE FATAL OUTCOME, ConfigurationFailure (spec/60_exceptions.md R170): nothing is saved, no handler
runs, the block answers E_CFG and accepts nothing more. The way back is `underReset` alone (R171). -/
def State.configurationFailure (s : State) : State :=
  { s with cfgf := true, phase := .faulted }.respond 0 .eCfg

/-! ### Time -/

/-- `draw(0, hi)` (spec/00_scope.md section 5): a free value brought under its bound (log 5). -/
def State.drawn (s : State) (hi : Nat) : Nat := if hi = 0 then 0 else Config.draw s.draws % (hi + 1)

/-- One draw has been made. -/
def State.countDraw (s : State) : State := { s with draws := s.draws + 1 }

/-- After how many microseconds an assertion of `rst` cuts a wait of `n` microseconds that begins now, if one does:
one at the instant the wait ends comes after it (log 9). -/
def State.cutAfter (s : State) (n : Nat) : Option Nat :=
  match s.rstAt with
  | [] => none
  | r :: _ => if r.start.toNat < s.now.toNat + n then some (r.start.toNat - s.now.toNat) else none

/-- Another agent drives the wire during the next `n` microseconds while the pin is an output (RF10; log 6). -/
def State.contended (s : State) (n : Nat) : Bool :=
  match s.dir with
  | .input => false
  | .output => s.plat.env.drivenIn s.now.toNat (s.now.toNat + n)

/-- The clock goes on by `n` microseconds (spec/43_timing_primitives.md R147; on 64 bits, log 2). -/
def State.advance (s : State) (n : Nat) : State := { s with now := s.now + BitVec.ofNat 64 n }

/-- Let `n` microseconds pass, unless a reset comes first or the wire is contended. -/
def State.elapse (s : State) (n : Nat) : Held :=
  match s.cutAfter n with
  | none => if s.contended n then .contention else .done (s.advance n)
  | some k => if s.contended k then .contention else .cut (s.advance k).takeReset

/-- How long a wait of `d` microseconds takes: exactly `d` with interrupts suppressed, up to `J_OPEN` longer with
interrupts enabled (spec/43_timing_primitives.md R140, R141). -/
def State.waitTime (s : State) (d : Nat) : Nat :=
  d + s.drawn (if s.im then Config.jMasked else s.plat.jOpen)

/-- `DELAY(d)` (spec/43_timing_primitives.md R140). -/
def State.delay (s : State) (d : Nat) : Held := s.countDraw.elapse (s.waitTime d)

/-- What follows a wait, and what comes of the two ways in which it does not end by itself. -/
def Held.andThen (h : Held) (k : State → State) : Host.Outcome State Fault Refusal :=
  match h with
  | .done s => .next (k s)
  | .cut s => .next s
  | .contention => .refused .contention

/-! ### The sequencer's position -/

/-- A micro-operation runs only where `PHASE` selects it (spec/30_encoding.md R83, spec/10_state.md R20). -/
def State.inPhase (s : State) (p : Phase) (k : State → Host.Outcome State Fault Refusal) :
    Host.Outcome State Fault Refusal :=
  if s.phase = p then k s else .refused .notCallable

/-- `pc <- p`, with the first data bit next (spec/10_state.md R20: `W_START --> W_BIT (IDX = 0)`). -/
def State.enterData (s : State) (p : Phase) : State := { s with phase := p, idx := 0 }

/-- The operation in progress completes: `pc <- IDLE` and the response (spec/70_reset_and_hazards.md R211). -/
def State.complete (s : State) (data : Byte) : State := { s with phase := .idle }.respond data .ok

/-- A data cell has been transmitted (spec/10_state.md R20, the two lines of `W_BIT`). -/
def State.afterTxBit (s : State) : State :=
  if s.idx.toNat + 1 ≤ 7 then { s with idx := s.idx + 1 } else { s with idx := 8, phase := .wStop }

/-- A data cell has been sampled (spec/42_receive.md R120, R126; spec/10_state.md R20, the two lines of
`R_BIT`). -/
def State.afterRxBit (s : State) (v : Level) : State :=
  let s' := { s with rxb := rxInsert s.rxb v s.idx }
  if s.idx.toNat + 1 ≤ 7 then { s' with idx := s.idx + 1 } else { s' with idx := 8 }.complete s'.rxb

/-- Whether the block accepts commands at all (spec/60_exceptions.md R166 RF1, RF2). -/
def State.notReady (s : State) : Option Refusal :=
  if s.phase = .faulted then some .faulted
  else if s.busy then some .busy
  else none

/-- Whether the block accepts CONFIGURE, WRITE or READ (spec/60_exceptions.md R166 RF1, RF2, RF4;
spec/40_configuration.md R93: `PHASE = IDLE`). -/
def State.notIdle (s : State) : Option Refusal :=
  match s.notReady with
  | some r => some r
  | none => if s.bound = true ∧ s.phase = .idle then none else some .notBound

/-- Whether the block accepts WRITE or READ (spec/60_exceptions.md R166 RF5). -/
def State.noTransfer (s : State) : Option Refusal :=
  match s.notIdle with
  | some r => some r
  | none => if s.configured then none else some .notConfigured

end Sys2Proof.Machine
end

