-- ==== Sys2Proof/Machine/Construct.lean ====
section
/-! DEFINITION. Construction and configuration: BIND and CONFIGURE (spec/40_configuration.md). -/

namespace Sys2Proof.Machine

/-- `BIND pin` (spec/40_configuration.md R90 to R92). The platform's lookup comes first (R90): where it fails the
driver binds nothing, so that RF9, two instances bound to one pin, does not arise, whoever owns the pin (R91).
Refused: RF1, RF2, RF3 (R80 case c), and RF9 for a pin whose lookup succeeds. -/
def execBind (pin : PinId) (s : State) : Host.Outcome State Fault Refusal :=
  match s.notReady with
  | some r => .refused r
  | none =>
    if s.bound = true ∨ s.phase ≠ .unbound then .refused .alreadyBound
    else if pin ∈ s.plat.pinFail then .next s.configurationFailure
    else if pin ∈ s.plat.otherPins then .refused .pinShared
    else .next (({ s with pin := pin, bound := true }.setDirection .input).complete 0)

/-- `CONFIGURE baud` (spec/40_configuration.md R93 to R97). Refused: RF1, RF2, RF4, RF6, RF7. -/
def execConfigure (baud : Word32) (s : State) : Host.Outcome State Fault Refusal :=
  match s.notIdle with
  | some r => .refused r
  | none =>
    if baud.toNat < Config.baudMin then .refused .baudZero
    else if Config.baudMax < baud.toNat then .refused .baudTooHigh
    else .next ({ s with bp := bitPeriod baud, configured := true }.complete 0)

end Sys2Proof.Machine
end

