-- ==== Sys2Proof/Machine/Receive.lean ====
section
/-! DEFINITION. Receive: READ and its micro-operations (spec/42_receive.md). -/

namespace Sys2Proof.Machine

/-- `READ` is accepted (spec/42_receive.md R120, spec/10_state.md R20 `IDLE --READ--> R_POLL`): the accumulator and
the flag are cleared and the time is captured; polling, alignment and the eight samples follow (log 3).
Refused: RF1, RF2, RF4, RF5. -/
def execRead (s : State) : Host.Outcome State Fault Refusal :=
  match s.noTransfer with
  | some r => .refused r
  | none => .next { s with rxb := 0, timedOut := false, t0 := s.now, phase := .rPoll }

/-- `now - T0 >= 10 * BP` (spec/42_receive.md R121; the difference on 64 bits, spec/30_encoding.md R86). -/
def State.pollExpired (s : State) : Bool := decide ((timeout s.bp).toNat ≤ (s.now - s.t0).toNat)

/-- One turn of POLL (spec/42_receive.md R121): the level is tested first, then the timeout; on both exits
alignment follows (R123). -/
def State.pollTurn (s : State) : Host.Outcome State Fault Refusal :=
  match s.readLevel with
  | .low => .next { s.sampled with phase := .rAlign }
  | .high =>
    if s.pollExpired then .next { s.sampled with timedOut := true, phase := .rAlign }
    else (s.sampled.delay Config.pollStep).andThen fun t => t

/-- ALIGN (spec/42_receive.md R124). -/
def State.alignCell (s : State) : Host.Outcome State Fault Refusal :=
  (s.delay (alignDelay s.bp).toNat).andThen fun t => t.enterData .rBit

/-- BITR with the accumulation of its bit (spec/42_receive.md R125, R126). -/
def State.sampleCell (s : State) : Host.Outcome State Fault Refusal :=
  let s' := s.mask.setDirection .input
  (s'.sampled.unmask.delay s.bp.toNat).andThen fun t => t.afterRxBit s'.readLevel

/-- `POLL` (spec/42_receive.md R121). -/
def execPoll (s : State) : Host.Outcome State Fault Refusal := s.inPhase .rPoll State.pollTurn

/-- `ALIGN` (spec/42_receive.md R124). -/
def execAlign (s : State) : Host.Outcome State Fault Refusal := s.inPhase .rAlign State.alignCell

/-- `BITR` (spec/42_receive.md R125). -/
def execBitr (s : State) : Host.Outcome State Fault Refusal := s.inPhase .rBit State.sampleCell

end Sys2Proof.Machine
end

