-- ==== Sys2Proof/Machine/Transmit.lean ====
section
/-! DEFINITION. Transmit: WRITE, the frame it puts on the wire, and its micro-operations
(spec/41_transmit.md, spec/30_encoding.md R74). -/

namespace Sys2Proof.Machine

/-- `WRITE byte` is accepted (spec/41_transmit.md R100, spec/10_state.md R20 `IDLE --WRITE--> W_START`): the byte
is latched and the ten cells follow, one step each (log 3). Refused: RF1, RF2, RF4, RF5. -/
def execWrite (byte : Byte) (s : State) : Host.Outcome State Fault Refusal :=
  match s.noTransfer with
  | some r => .refused r
  | none => .next { s with txb := byte, phase := .wStart }

/-- START: the whole start cell in one critical section (spec/41_transmit.md R101). -/
def State.startCell (s : State) : Host.Outcome State Fault Refusal :=
  (((s.mask.setDirection .output).setLevel .low).delay s.bp.toNat).andThen fun t => t.unmask.enterData .wBit

/-- BITW1: direction first, then level; the hold is outside the critical section (spec/41_transmit.md R102). -/
def State.highCell (s : State) : Host.Outcome State Fault Refusal :=
  (((s.mask.setDirection .output).setLevel .high).unmask.delay s.bp.toNat).andThen State.afterTxBit

/-- BITW0: level first, then direction; the hold is outside the critical section (spec/41_transmit.md R103). -/
def State.lowCell (s : State) : Host.Outcome State Fault Refusal :=
  (((s.mask.setLevel .low).setDirection .output).unmask.delay s.bp.toNat).andThen State.afterTxBit

/-- STOP: the whole stop cell in one critical section, then the release and the Low written to the latch of an
input pin (spec/41_transmit.md R105, spec/90_conflicts.md C4). -/
def State.stopCell (s : State) : Host.Outcome State Fault Refusal :=
  ((s.mask.setLevel .high).delay s.bp.toNat).andThen fun t =>
    ((t.setDirection .input).setLevel .low).unmask.complete 0

/-- `START` (spec/41_transmit.md R101). -/
def execStart (s : State) : Host.Outcome State Fault Refusal := s.inPhase .wStart State.startCell

/-- `BITW1` (spec/41_transmit.md R102). -/
def execBitw1 (s : State) : Host.Outcome State Fault Refusal := s.inPhase .wBit State.highCell

/-- `BITW0` (spec/41_transmit.md R103). -/
def execBitw0 (s : State) : Host.Outcome State Fault Refusal := s.inPhase .wBit State.lowCell

/-- `STOP` (spec/41_transmit.md R105). -/
def execStop (s : State) : Host.Outcome State Fault Refusal := s.inPhase .wStop State.stopCell

/-- The next cell of the frame that is being transmitted: START, then BITW1 or BITW0 by `TXB[IDX]`
(spec/41_transmit.md R104), then STOP. A reset that is due comes first; where no frame is being transmitted
nothing is left to do. -/
def State.nextCell (s : State) : Host.Outcome State Fault Refusal :=
  if s.busy = true ∧ s.resetDue = true then .next s.underReset
  else
    match s.phase with
    | .wStart => s.startCell
    | .wBit =>
      match txBit s.txb s.idx with
      | .high => s.highCell
      | .low => s.lowCell
    | .wStop => s.stopCell
    | .unbound | .idle | .rPoll | .rAlign | .rBit | .faulted => .next s

/-- The next `k` cells. A reset ends the frame (spec/70_reset_and_hazards.md R190). -/
def State.nextCells : Nat → State → Host.Outcome State Fault Refusal
  | 0, s => .next s
  | k + 1, s =>
    match s.nextCell with
    | .next t => State.nextCells k t
    | .fault r => .fault r
    | .refused r => .refused r

/-- `FRAME byte`: the ten cells of the byte being transmitted, from the start cell to the release
(spec/30_encoding.md R74, R76; spec/41_transmit.md R100; log 10). It belongs to the WRITE in progress and cannot be
invoked without one. -/
def execFrame (byte : Byte) (s : State) : Host.Outcome State Fault Refusal :=
  if s.txb = byte then s.inPhase .wStart (State.nextCells Config.frameCells) else .refused .notCallable

end Sys2Proof.Machine
end

