-- ==== Sys2Proof/Machine/Dispatch.lean ====
section
/-! DEFINITION. One arm per row of spec/opcode_table.json. -/

namespace Sys2Proof.Machine

def exec (i : Instr) (s : State) : Host.Outcome State Fault Refusal :=
  match i with
  | .bind pin => Sys2Proof.Machine.execBind pin s
  | .configure baud => Sys2Proof.Machine.execConfigure baud s
  | .write byte => Sys2Proof.Machine.execWrite byte s
  | .read => Sys2Proof.Machine.execRead s
  | .frame byte => Sys2Proof.Machine.execFrame byte s
  | .start => Sys2Proof.Machine.execStart s
  | .bitw1 => Sys2Proof.Machine.execBitw1 s
  | .bitw0 => Sys2Proof.Machine.execBitw0 s
  | .stop => Sys2Proof.Machine.execStop s
  | .poll => Sys2Proof.Machine.execPoll s
  | .align => Sys2Proof.Machine.execAlign s
  | .bitr => Sys2Proof.Machine.execBitr s

end Sys2Proof.Machine
end

