-- ==== Sys2Proof/Decode.lean ====
section
/-! DEFINITION. Reading an operation from its code and writing it (spec/30_encoding.md R71, R72, R74, R81).
Decoding is total and rejects by name. -/

namespace Sys2Proof

/-- Why a code is no instruction. -/
inductive DecodeError where
  /-- A command word with a nonzero reserved bit (spec/30_encoding.md R80 case a, RF8). -/
  | reservedBits
  /-- A frame whose first cell is not Low (spec/30_encoding.md R74). -/
  | noStartCell
  /-- A frame whose last cell is not High (spec/30_encoding.md R74). -/
  | noStopCell
  /-- A cell that no micro-operation of its place has: start detection watches for Low alone. -/
  | noSuchCell
deriving DecidableEq, Repr

/-- `op = cmd[33:32]` (spec/30_encoding.md R71). -/
def cmdOp (w : CmdWord) : BitVec 2 := w.extractLsb' 32 2

/-- `arg = cmd[31:0]` (spec/30_encoding.md R71). -/
def cmdArg (w : CmdWord) : Word32 := w.extractLsb' 0 32

/-- `arg[7:0]`, the operand of BIND and WRITE (spec/30_encoding.md R72). -/
def argByte (arg : Word32) : Byte := arg.extractLsb' 0 8

/-- `arg[31:8]`, reserved in BIND and WRITE (spec/30_encoding.md R72). -/
def argReserved (arg : Word32) : BitVec 24 := arg.extractLsb' 8 24

/-- The instruction a command word selects (spec/30_encoding.md R71, R72): `op` alone identifies it (R81). -/
def decodeCmd (w : CmdWord) : Except DecodeError Instr :=
  let arg := cmdArg w
  if cmdOp w = 0b00#2 then
    if argReserved arg = 0 then .ok (.bind (argByte arg)) else .error .reservedBits
  else if cmdOp w = 0b01#2 then
    .ok (.configure arg)
  else if cmdOp w = 0b10#2 then
    if argReserved arg = 0 then .ok (.write (argByte arg)) else .error .reservedBits
  else
    if arg = 0 then .ok .read else .error .reservedBits

/-- The eight data cells of a frame, cell 1 first, as the byte they carry: bit 0 is cell 1
(spec/30_encoding.md R74, R76). -/
def frameByte (w : FrameWord) : Byte := (w.extractLsb' 1 8).reverse

/-- The byte a frame carries (spec/30_encoding.md R74): cell `k` is bit `9 - k` of the word. -/
def decodeFrame (w : FrameWord) : Except DecodeError Instr :=
  if w.getLsbD 9 then .error .noStartCell
  else if w.getLsbD 0 then .ok (.frame (frameByte w))
  else .error .noStopCell

/-- The micro-operation a cell in its place stands for (spec/opcode_table.json, format CELL). The level of the
cells the receiver aligns on or samples is not part of the code (`x`, `v`). -/
def decodeCell : CellSlot → Level → Except DecodeError Instr
  | .framing, .low => .ok .start
  | .framing, .high => .ok .stop
  | .txData, .low => .ok .bitw0
  | .txData, .high => .ok .bitw1
  | .rxPoll, .low => .ok .poll
  | .rxPoll, .high => .error .noSuchCell
  | .rxAlign, _ => .ok .align
  | .rxData, _ => .ok .bitr

/-- The instruction of any code. -/
def decode : Code → Except DecodeError Instr
  | .cmd w => decodeCmd w
  | .wire w => decodeFrame w
  | .cell slot level => decodeCell slot level

/-- A command word from its two fields (spec/30_encoding.md R71). -/
def cmdWord (op : BitVec 2) (arg : Word32) : CmdWord := (op ++ arg : BitVec (2 + 32))

/-- The frame `0abcdefgh1` of a byte, first cell leftmost (spec/30_encoding.md R74). -/
def frameWord (b : Byte) : FrameWord := (0#1 ++ b.reverse ++ 1#1 : BitVec (1 + 8 + 1))

/-- The code of an instruction, from the same tables. -/
def encode : Instr → Code
  | .bind pin => .cmd (cmdWord 0b00#2 (pin.setWidth 32))
  | .configure baud => .cmd (cmdWord 0b01#2 baud)
  | .write byte => .cmd (cmdWord 0b10#2 (byte.setWidth 32))
  | .read => .cmd (cmdWord 0b11#2 0#32)
  | .frame byte => .wire (frameWord byte)
  | .start => .cell .framing .low
  | .bitw1 => .cell .txData .high
  | .bitw0 => .cell .txData .low
  | .stop => .cell .framing .high
  | .poll => .cell .rxPoll .low
  | .align => .cell .rxAlign .low
  | .bitr => .cell .rxData .low

/-- The place of a cell, as the model numbers it in bits 3..1 of a cell's byte (log 11). -/
def cellSlotOf (n : Nat) : Option CellSlot :=
  if n = 0 then some .framing
  else if n = 1 then some .txData
  else if n = 2 then some .rxPoll
  else if n = 3 then some .rxAlign
  else if n = 4 then some .rxData
  else none

/-- The code held in a word of spec/opcode_table.json laid out in whole bytes: 8 bits for a cell, 16 for a
frame, 40 for a command (log 10, log 11). Bits the format does not have are 0. -/
def codeOfTableWord (nbits w : Nat) : Option Code :=
  if nbits ≤ 8 then
    (cellSlotOf (w / 2)).map fun slot => .cell slot (Level.ofBit (decide (w % 2 = 1)))
  else if nbits ≤ 16 then
    if w < 2 ^ 10 then some (.wire (BitVec.ofNat 10 w)) else none
  else
    if w < 2 ^ 34 then some (.cmd (BitVec.ofNat 34 w)) else none

/-- The instruction this decoder reads from a word of spec/opcode_table.json. -/
def decodeTableWord (nbits w : Nat) : Option Instr :=
  match codeOfTableWord nbits w with
  | some c =>
    match decode c with
    | .ok i => some i
    | .error _ => none
  | none => none

end Sys2Proof
end

