-- ==== Sys2Proof/Machine/Sequencer.lean ====
section
/-! DEFINITION. What the sequencer finds to do: a command at the port (spec/20_memory.md R62), the next command of
the caller's program (spec/70_reset_and_hazards.md R211), or the micro-operation `PHASE` selects
(spec/10_state.md R20). -/

namespace Sys2Proof.Machine

/-- The command presented to the block now, and the state in which it has been taken: what stands at the port,
else the head of the caller's program once it is due (log 8). The caller of an operation that a reset abandoned
goes on with its next command once the block is not busy. DESIGN CHOICE, unsafe (log 23). -/
def State.presented (s : State) : Option (CmdWord × State) :=
  if s.cmdValid then some (s.cmd, { s with cmdValid := false })
  else
    match s.program with
    | [] => none
    | i :: rest => if i.due.toNat ≤ s.now.toNat then some (i.word, { s with program := rest }) else none

/-- The code of the micro-operation `PHASE` selects, if a transfer is in progress (spec/10_state.md R20;
`W_BIT` chooses by `TXB[IDX]`, spec/41_transmit.md R104). At `W_START` the whole frame, if so selected (log 10). -/
def State.selected (s : State) : Option Code :=
  match s.phase with
  | .unbound | .idle | .faulted => none
  | .wStart => if s.wholeFrame then some (.wire (frameWord s.txb)) else some (.cell .framing .low)
  | .wBit => some (.cell .txData (txBit s.txb s.idx))
  | .wStop => some (.cell .framing .high)
  | .rPoll => some (.cell .rxPoll .low)
  | .rAlign => some (.cell .rxAlign .low)
  | .rBit => some (.cell .rxData .low)

/-- What the sequencer does next when no reset is due. The response pulse of the step before is over (log 19). A
blocked caller's program waits; a command at the port of a busy block is refused (RF1), any command to a faulted
one too (RF2). -/
def State.fetch (s : State) : Fetched :=
  let s := s.endPulse
  match s.selected with
  | some c => if s.cmdValid then .refuse .busy else .run c s
  | none =>
    match s.presented with
    | some (w, t) => if s.phase = .faulted then .refuse .faulted else .run (.cmd w) t
    | none => if s.phase = .faulted ∧ s.rstAt = [] then .ended else .idle

/-- The refusal a code without an instruction meets (spec/60_exceptions.md R166 RF8). -/
def refusalOfDecodeError : DecodeError → Refusal
  | .reservedBits => .reservedBits
  | .noStartCell => .notACode
  | .noStopCell => .notACode
  | .noSuchCell => .notACode

/-- Nothing to do: one microsecond passes (spec/10_state.md R26: "nothing changes except `now`"; log 8). -/
def State.tick (s : State) : State := s.endPulse.advance 1

/-- The state in which the very next step runs the micro-operation of this cell: `PHASE` selects it (log 11). -/
def State.placeCell (s : State) (slot : CellSlot) (level : Level) : State :=
  let s := { s with cmdValid := false, rst := none, rstAt := [], wholeFrame := false }
  match slot, level with
  | .framing, .low => { s with phase := .wStart }
  | .framing, .high => { s with phase := .wStop }
  | .txData, .low => { s with phase := .wBit, idx := 0, txb := 0 }
  | .txData, .high => { s with phase := .wBit, idx := 0, txb := 1 }
  | .rxPoll, _ => { s with phase := .rPoll }
  | .rxAlign, _ => { s with phase := .rAlign }
  | .rxData, _ => { s with phase := .rBit }

/-- The state in which the very next step runs this code: a command stands at the port, a frame is selected at
`W_START` with its byte in `TXB`, a cell is placed by `PHASE` (log 13). -/
def State.placeCode (s : State) : Code → State
  | .cmd w => { s with cmdValid := true, cmd := w, rst := none, rstAt := [] }
  | .wire w =>
    { s with
      cmdValid := false, rst := none, rstAt := [], wholeFrame := true, phase := .wStart, txb := frameByte w }
  | .cell slot level => s.placeCell slot level

end Sys2Proof.Machine
end

