-- ==== Sys2Proof/Machine/Step.lean ====
section
/-! DEFINITION. One step: a reset, a command, a micro-operation, or a microsecond of idling. -/

namespace Sys2Proof.Machine

/-- Run a code: decode it and execute what it stands for. -/
def runCode (c : Code) (s : State) : Host.Outcome State Fault Refusal :=
  match decode c with
  | .ok i => exec i s
  | .error e => .refused (refusalOfDecodeError e)

/-- One step of the machine (log 3). -/
def step (s : State) : Host.Outcome State Fault Refusal :=
  if s.resetDue then .next s.underReset
  else
    match s.fetch with
    | .run c t => runCode c t
    | .refuse r => .refused r
    | .idle => .next s.tick
    | .ended => .fault .configurationFailure

/-- `s` with this word of spec/opcode_table.json stored where `step` fetches its next instruction (log 13). -/
def State.withFetchWord (s : State) (nbits w : Nat) : State :=
  match codeOfTableWord nbits w with
  | some c => s.placeCode c
  | none => s

end Sys2Proof.Machine
end

