-- ==== Sys2Proof/Safety.lean ====
section
/-! DEFINITION. The terms the statements use: runs, the invariant, the premises about the surroundings, and the
wire's history as the trace tells it. -/

namespace Sys2Proof.Machine

/-! ### Runs -/

/-- `k` steps, stopping at the first fault or refusal. -/
def steps : Nat → State → Host.Outcome State Fault Refusal
  | 0, s => .next s
  | k + 1, s =>
    match step s with
    | .next t => steps k t
    | .fault r => .fault r
    | .refused r => .refused r

/-- A run has ended well: the last response has been given and the block is idle with nothing left to issue
(spec/70_reset_and_hazards.md R211). DESIGN CHOICE, unsafe (log 23): it speaks of the state alone, so of the run since
the last reset; a run that was `FAULTED` before that reset, which the spec says has ended by fault, may satisfy it
afterwards. -/
def State.endedWell (s : State) : Prop := s.phase = .idle ∧ s.program = [] ∧ s.cmdValid = false

/-- A run has ended by fault (spec/60_exceptions.md R171, spec/70_reset_and_hazards.md R211): never a success. It too
speaks of the state alone: a reset of the block, with which the model lets the caller go on, ends it (DESIGN CHOICE,
log 23). -/
def State.endedByFault (s : State) : Prop := s.phase = .faulted

/-! ### Premises about the surroundings -/

/-- `rst` is not asserted and will not be (spec/70_reset_and_hazards.md R190). -/
def State.NoReset (s : State) : Prop := s.rst = none ∧ s.rstAt = []

/-- No reset stands or is coming and no second agent presents a command (spec/70_reset_and_hazards.md R212). -/
def State.Undisturbed (s : State) : Prop := s.NoReset ∧ s.cmdValid = false

/-- The caller has nothing to issue at this microsecond: nothing stands at the port, and its program is over or its
next command not yet due (spec/70_reset_and_hazards.md R211; log 8). -/
def State.NothingPresented (s : State) : Prop :=
  s.cmdValid = false ∧ ∀ head rest, s.program = head :: rest → s.now.toNat < head.due.toNat

/-- The column "after reset" (spec/10_state.md R29, spec/70_reset_and_hazards.md R190), for every element to which
it gives a value. -/
def State.AsAfterReset (s : State) : Prop :=
  s.phase = .unbound ∧ s.bound = false ∧ s.configured = false ∧ s.dir = .input ∧ s.im = false ∧ s.status = 0#3

/-- Nobody else drives the wire during the next `n` microseconds (spec/20_memory.md R47, R48). -/
def State.WireFree (s : State) (n : Nat) : Prop :=
  s.plat.env.drivenIn s.now.toNat (s.now.toNat + n) = false

/-- The 64-bit clock does not wrap during the next `n` microseconds (spec/10_state.md R19). -/
def State.ClockFits (s : State) (n : Nat) : Prop := s.now.toNat + n < 2 ^ 64

/-- Ideal timing: `J_OPEN = 0` (spec/70_reset_and_hazards.md R210). -/
def State.Ideal (s : State) : Prop := s.plat.jOpen = 0

/-- The wire, left alone by the driver, has this level in every microsecond of `[lo, hi)`. -/
def Env.Holds (env : Env) (l : Level) (lo hi : Nat) : Prop := ∀ t, lo ≤ t → t < hi → env.levelAt t = l

/-- The level of cell `k` of the frame of `b` (spec/30_encoding.md R74): cell 0 leftmost. -/
def frameLevel (b : Byte) (k : Nat) : Level := Level.ofBit ((frameWord b).getLsbD (9 - k))

/-- The environment presents the frame of `b` with its start edge at `te` and cells of `p` microseconds
(spec/20_memory.md R47, spec/95_test_vectors.md section 4). -/
def Env.Sends (env : Env) (b : Byte) (te p : Nat) : Prop :=
  ∀ t, te ≤ t → t < te + 10 * p → env.levelAt t = frameLevel b ((t - te) / p)

/-! ### The invariant -/

/-- What holds between any two steps, whatever the run (spec/10_state.md R28 and the rules each field names). Two
fields rest on the model's own choices as well: how long the response outputs stand (log 19), and what they and
`IDX` hold after reset (log 1). -/
structure Sound (s : State) : Prop where
  /-- spec/43_timing_primitives.md R143: no critical section spans a step. -/
  unmasked : s.im = false
  /-- spec/10_state.md R12, R20. -/
  bound_iff : s.bound = true ↔ s.phase ≠ .unbound ∧ s.phase ≠ .faulted
  /-- spec/10_state.md R25, spec/60_exceptions.md R170. -/
  fault_iff : s.cfgf = true ↔ s.phase = .faulted
  /-- E_CFG is the outcome of a failed BIND alone (spec/60_exceptions.md R165). That `rsp_err` keeps it after the
  pulse is the model's choice (log 19), and so is that it is OK after reset (log 1). -/
  error_iff : s.rspErr = .eCfg ↔ s.phase = .faulted
  /-- spec/30_encoding.md R80 case e. -/
  busy_configured : s.busy = true → s.configured = true
  /-- spec/10_state.md R28. -/
  bp_legal : s.configured = true → s.bound = true ∧ 1 ≤ s.bp.toNat ∧ s.bp.toNat ≤ 1_000_000
  /-- spec/10_state.md R15: the pin is an output inside a WRITE, after its start, and nowhere else. -/
  output_iff : s.dir = .output ↔ s.phase = .wBit ∨ s.phase = .wStop
  /-- spec/10_state.md R21; after reset by the model's choice (log 1). -/
  idx_le : s.idx.toNat ≤ 8
  /-- spec/10_state.md R20. -/
  idx_data : s.phase = .wBit ∨ s.phase = .rBit → s.idx.toNat ≤ 7
  /-- spec/42_receive.md R133. -/
  polling : s.phase = .rPoll → s.timedOut = false
  /-- spec/10_state.md R23: nothing is assembled before the first sample. -/
  rxb_empty : s.phase = .rPoll ∨ s.phase = .rAlign → s.rxb = 0
  /-- spec/30_encoding.md R77: only the bits sampled so far are assembled. -/
  rxb_so_far : s.phase = .rBit → s.rxb.toNat < 2 ^ s.idx.toNat
  /-- The pulse comes where an operation has completed (spec/20_memory.md R62). That it stands until the next step is
  the model's choice (log 19), and so is that it is down after reset (log 1). -/
  pulse : s.rspValid = true → s.phase = .idle ∨ s.phase = .faulted

/-! ### The history of the pin -/

/-- What an operation of the trace does to the direction and the latch (spec/20_memory.md R41, R42). -/
def PinOp.apply : PinOp → Dir × Level → Dir × Level
  | .setDirection d, p => (d, p.2)
  | .setLevel l, p => (p.1, l)
  | .reset, _ => (State.reset.dir, State.reset.olat)
  | .mask, p => p
  | .unmask, p => p
  | .sample _, p => p

/-- Direction and latch at microsecond `t`: every operation with effect time `<= t` applied, oldest first
(spec/20_memory.md R45); `tr` is newest first, `before` what held before it. -/
def pinAt (before : Dir × Level) (tr : List PinEvent) (t : Nat) : Dir × Level :=
  tr.foldr (fun e p => if e.time.toNat ≤ t then e.op.apply p else p) before

/-- `line(t)` as the trace tells it (spec/20_memory.md R45). -/
def wireAt (env : Env) (before : Dir × Level) (tr : List PinEvent) (t : Nat) : Level :=
  wireLevel env (pinAt before tr t).1 (pinAt before tr t).2 t

/-- `IM` at microsecond `t` as the trace tells it: every MASK and UNMASK with effect time `<= t` applied, oldest
first (spec/43_timing_primitives.md R142). -/
def maskedAt (before : Bool) (tr : List PinEvent) (t : Nat) : Bool :=
  tr.foldr (fun e m => if e.time.toNat ≤ t then
    (match e.op with
     | .mask => true
     | .unmask => false
     | .reset => false
     | .setDirection _ => m
     | .setLevel _ => m
     | .sample _ => m) else m) before

/-- The kinds of operation a trace holds. -/
inductive OpKind where
  | masks
  | unmasks
  | directions
  | levels
  | samples
  | resets
deriving DecidableEq, Repr

/-- The kind of an operation. -/
def PinOp.kind : PinOp → OpKind
  | .mask => .masks
  | .unmask => .unmasks
  | .setDirection _ => .directions
  | .setLevel _ => .levels
  | .sample _ => .samples
  | .reset => .resets

/-- How many operations of the trace are of a kind. -/
def countOps (k : OpKind) (tr : List PinEvent) : Nat := tr.countP fun e => decide (e.op.kind = k)

/-- MASK and UNMASK alternate strictly (spec/43_timing_primitives.md R143): from a section that is open or not, the
operations, oldest first, leave one that is open or not; `none` where two of a kind follow each other. A reset ends
the section. -/
def sections : Bool → List PinOp → Option Bool
  | open_, [] => some open_
  | open_, .mask :: ops => if open_ then none else sections true ops
  | open_, .unmask :: ops => if open_ then sections false ops else none
  | _, .reset :: ops => sections false ops
  | open_, .setDirection _ :: ops => sections open_ ops
  | open_, .setLevel _ :: ops => sections open_ ops
  | open_, .sample _ :: ops => sections open_ ops

end Sys2Proof.Machine
end

