-- ==== Sys2Proof/WellFormed.lean ====
section
/-! DEFINITION. Which terms of `Instr` are operations in contract (spec/40_configuration.md R94). Every other
operand is bounded by its type (spec/30_encoding.md R72). -/

namespace Sys2Proof

/-- The baud rate has a quotient: `BAUD_MIN <= baud` (spec/40_configuration.md R94, RF6). -/
def baudHasQuotient (baud : Word32) : Bool := decide (Config.baudMin ≤ baud.toNat)

/-- The baud rate is not above the contract: `baud <= BAUD_MAX` (spec/40_configuration.md R94, RF7). -/
def baudBelowLimit (baud : Word32) : Bool := decide (baud.toNat ≤ Config.baudMax)

/-- The operation's operand is in contract. -/
def Instr.wf : Instr → Bool
  | .configure baud => baudHasQuotient baud && baudBelowLimit baud
  | .bind _ | .write _ | .read | .frame _ => true
  | .start | .bitw1 | .bitw0 | .stop | .poll | .align | .bitr => true

end Sys2Proof
end

