-- ==== Sys2Proof/Certificates/Slice0/Obligations.lean ====
section
/-! DEFINITION. The statements about the Line Driver, for the provers. A statement that gives `exec i s` as a record
update of `s` says the whole frame: every field the update does not name is unchanged. In every statement a step is one
line of the `PHASE` table (log 3), and the fields `draws`, `wholeFrame` and `trace` are the model's own (log 5, log 10,
log 17): what is said of them is the model's choice and no rule's. -/

open Sys2Proof Sys2Proof.Machine

/-! ### Construction and configuration -/

/-- spec/40_configuration.md R90: a BIND whose lookup succeeds, for every pin, writes `PIN`, `BOUND`, `DIR`, `PHASE`,
answers OK and changes nothing else. The pin is one no other driver owns (R60, log 7). -/
def Obligations.BindTakesThePin : Prop :=
  ∀ (pin : PinId) (s : State), s.phase = .unbound → s.bound = false → pin ∉ s.plat.otherPins →
    pin ∉ s.plat.pinFail →
    exec (.bind pin) s = .next { s with
      pin := pin
      bound := true
      dir := .input
      phase := .idle
      rspValid := true
      rspData := 0
      rspErr := .ok
      trace := ⟨s.now, .setDirection .input⟩ :: s.trace }

/-- spec/40_configuration.md R91: a BIND whose lookup fails, whoever owns the pin, sets `CFGF`, answers E_CFG, goes to
`FAULTED`, writes nothing else, and the block accepts no command from then on; and a BIND fails in no other way. -/
def Obligations.BindFailureIsFatal : Prop :=
  (∀ (pin : PinId) (s : State), s.phase = .unbound → s.bound = false → pin ∈ s.plat.pinFail →
    ∃ t, exec (.bind pin) s = .next t ∧
      t = { s with cfgf := true, phase := .faulted, rspValid := true, rspData := 0, rspErr := .eCfg } ∧
      t.cmdReady = false ∧ t.rspErr.code = 1#2 ∧ ∀ i : Instr, ∃ r, exec i t = .refused r) ∧
  (∀ (pin : PinId) (s t : State), exec (.bind pin) s = .next t → t.phase = .faulted → pin ∈ s.plat.pinFail)

/-- spec/40_configuration.md R93, spec/30_encoding.md R78: an idle driver, configured before or not, takes every baud
rate in contract, stores the truncated quotient, which is between 1 and 1_000_000, in `BP`, sets `CONFIGURED`, answers
OK, and touches nothing else; 0 and every rate above the contract are refused. -/
def Obligations.ConfigureStoresTheQuotient : Prop :=
  (∀ (baud : Word32) (s : State), baud.toNat = 0 ∨ 999999 < baud.toNat → ∃ r, exec (.configure baud) s = .refused r) ∧
  ∀ (baud : Word32) (s : State), s.phase = .idle → s.bound = true → 1 ≤ baud.toNat → baud.toNat ≤ 999999 →
    (bitPeriod baud).toNat = 1000000 / baud.toNat ∧ 1 ≤ (bitPeriod baud).toNat ∧
    (bitPeriod baud).toNat ≤ 1000000 ∧
    exec (.configure baud) s = .next { s with
      bp := bitPeriod baud
      configured := true
      rspValid := true
      rspData := 0
      rspErr := .ok }

/-- spec/30_encoding.md R78: whatever CONFIGURE accepts, `BP * baud <= 1_000_000 < (BP + 1) * baud`, the bit-period is
between 1 and 1_000_000, and it never exceeds the quotient of a smaller baud rate. -/
def Obligations.BitPeriodBracketsTheBaud : Prop :=
  ∀ (baud : Word32) (s t : State), exec (.configure baud) s = .next t →
    t.bp.toNat * baud.toNat ≤ 1000000 ∧ 1000000 < (t.bp.toNat + 1) * baud.toNat ∧
    1 ≤ t.bp.toNat ∧ t.bp.toNat ≤ 1000000 ∧
    ∀ (slower : Word32) (u : State), exec (.configure slower) s = .next u → slower.toNat ≤ baud.toNat →
      t.bp.toNat ≤ u.bp.toNat

/-- spec/30_encoding.md R79, R86: for every legal bit-period the derived durations are exact on 32 bits. -/
def Obligations.DerivedDurationsAreExact : Prop :=
  ∀ bp : Word32, bp.toNat ≤ 1000000 →
    (alignDelay bp).toNat = bp.toNat + bp.toNat / 2 ∧ (timeout bp).toNat = 10 * bp.toNat

/-- spec/30_encoding.md R80, case by case, for every state: (a) a nonzero reserved bit, in a word at the port and in the
due head of the caller's program, (b) a baud rate out of contract, (c) BIND while bound, (d) CONFIGURE, WRITE, READ
while not bound, (e) WRITE, READ while not configured, (f) any command while busy or faulted. A refusal carries no
state, so nothing changes. (Port and program in this form are the model's choice, log 8.) -/
def Obligations.IssuesOutsideTheContractAreRefused : Prop :=
  (∀ (w : CmdWord) (s : State), s.resetDue = false → s.cmdReady = true →
    ((cmdOp w = 0#2 ∨ cmdOp w = 2#2) ∧ argReserved (cmdArg w) ≠ 0 ∨ cmdOp w = 3#2 ∧ cmdArg w ≠ 0) →
    (s.cmdValid = true → s.cmd = w → step s = .refused .reservedBits) ∧
    (∀ head rest, s.cmdValid = false → s.program = head :: rest → head.word = w → head.due.toNat ≤ s.now.toNat →
      step s = .refused .reservedBits)) ∧
  (∀ (baud : Word32) (s : State), baud.toNat = 0 ∨ 999999 < baud.toNat → ∃ r, exec (.configure baud) s = .refused r) ∧
  (∀ (pin : PinId) (s : State), s.bound = true → ∃ r, exec (.bind pin) s = .refused r) ∧
  (∀ s : State, s.bound = false → (∀ baud, ∃ r, exec (.configure baud) s = .refused r) ∧
    (∀ byte, ∃ r, exec (.write byte) s = .refused r) ∧ ∃ r, exec .read s = .refused r) ∧
  (∀ s : State, s.configured = false → (∀ byte, ∃ r, exec (.write byte) s = .refused r) ∧
    ∃ r, exec .read s = .refused r) ∧
  (∀ s : State, s.busy = true ∨ s.phase = .faulted → (∀ pin, ∃ r, exec (.bind pin) s = .refused r) ∧
    (∀ baud, ∃ r, exec (.configure baud) s = .refused r) ∧ (∀ byte, ∃ r, exec (.write byte) s = .refused r) ∧
    ∃ r, exec .read s = .refused r)

/-- spec/60_exceptions.md R166: each refusal answers by its own name where it alone applies: RF3, RF4, RF5, RF6, RF7,
RF9 (where the lookup succeeds, spec/40_configuration.md R90). (Which one is named where several apply is the model's choice, log 20.) -/
def Obligations.RefusalsAnswerByName : Prop :=
  (∀ (pin : PinId) (s : State), s.phase = .idle → s.bound = true →
    exec (.bind pin) s = .refused .alreadyBound) ∧
  (∀ (baud : Word32) (byte : Byte) (s : State), s.phase = .unbound → s.bound = false →
    exec (.configure baud) s = .refused .notBound ∧ exec (.write byte) s = .refused .notBound ∧
    exec .read s = .refused .notBound) ∧
  (∀ (byte : Byte) (s : State), s.phase = .idle → s.bound = true → s.configured = false →
    exec (.write byte) s = .refused .notConfigured ∧ exec .read s = .refused .notConfigured) ∧
  (∀ s : State, s.phase = .idle → s.bound = true → exec (.configure 0) s = .refused .baudZero) ∧
  (∀ (baud : Word32) (s : State), s.phase = .idle → s.bound = true → 1000000 ≤ baud.toNat →
    exec (.configure baud) s = .refused .baudTooHigh) ∧
  (∀ (pin : PinId) (s : State), s.phase = .unbound → s.bound = false → pin ∉ s.plat.pinFail →
    pin ∈ s.plat.otherPins → exec (.bind pin) s = .refused .pinShared)

/-! ### Transmit -/

/-- spec/41_transmit.md R100, spec/10_state.md R20: an idle configured driver accepts a WRITE of every byte, latches
it, goes to `W_START`, and changes nothing else; it is busy from then on. That the
cells follow as steps of their own (`WriteRunsItsTenCells`) is the model's reading, log 3. -/
def Obligations.WriteIsAccepted : Prop :=
  ∀ (byte : Byte) (s : State), s.phase = .idle → s.bound = true → s.configured = true →
    ∃ t, exec (.write byte) s = .next t ∧ t = { s with txb := byte, phase := .wStart } ∧ t.busy = true ∧
      t.cmdReady = false

/-- spec/41_transmit.md R101: START, direction first, then level, held for exactly one bit-period inside one critical
section, for every latch level before it. -/
def Obligations.StartCellEffect : Prop :=
  ∀ s : State, s.phase = .wStart → s.rstAt = [] → s.WireFree s.bp.toNat →
    exec .start s = .next { s with
      dir := .output
      olat := .low
      im := false
      now := s.now + BitVec.ofNat 64 s.bp.toNat
      phase := .wBit
      idx := 0
      draws := s.draws + 1
      trace := ⟨s.now + BitVec.ofNat 64 s.bp.toNat, .unmask⟩ :: ⟨s.now, .setLevel .low⟩ ::
        ⟨s.now, .setDirection .output⟩ :: ⟨s.now, .mask⟩ :: s.trace }

/-- spec/41_transmit.md R102: BITW1, direction first, then level, held outside the critical section for one
bit-period and an extra time of at most `J_OPEN`; the next cell is the next bit, or after bit 7 the stop cell. -/
def Obligations.HighCellEffect : Prop :=
  ∀ s : State, s.phase = .wBit → s.rstAt = [] → s.WireFree (s.bp.toNat + s.plat.jOpen) →
    ∃ j, j ≤ s.plat.jOpen ∧ exec .bitw1 s = .next { s with
      dir := .output
      olat := .high
      im := false
      now := s.now + BitVec.ofNat 64 (s.bp.toNat + j)
      phase := if s.idx.toNat < 7 then .wBit else .wStop
      idx := if s.idx.toNat < 7 then s.idx + 1 else 8
      draws := s.draws + 1
      trace := ⟨s.now, .unmask⟩ :: ⟨s.now, .setLevel .high⟩ :: ⟨s.now, .setDirection .output⟩ ::
        ⟨s.now, .mask⟩ :: s.trace }

/-- spec/41_transmit.md R103: BITW0, level first, then direction, held outside the critical section for one
bit-period and an extra time of at most `J_OPEN`; the next cell is the next bit, or after bit 7 the stop cell. -/
def Obligations.LowCellEffect : Prop :=
  ∀ s : State, s.phase = .wBit → s.rstAt = [] → s.WireFree (s.bp.toNat + s.plat.jOpen) →
    ∃ j, j ≤ s.plat.jOpen ∧ exec .bitw0 s = .next { s with
      dir := .output
      olat := .low
      im := false
      now := s.now + BitVec.ofNat 64 (s.bp.toNat + j)
      phase := if s.idx.toNat < 7 then .wBit else .wStop
      idx := if s.idx.toNat < 7 then s.idx + 1 else 8
      draws := s.draws + 1
      trace := ⟨s.now, .unmask⟩ :: ⟨s.now, .setDirection .output⟩ :: ⟨s.now, .setLevel .low⟩ ::
        ⟨s.now, .mask⟩ :: s.trace }

/-- spec/41_transmit.md R105: STOP, High held for exactly one bit-period, then the release, then Low into the latch of
the input pin, all in one critical section; the WRITE completes and answers OK. -/
def Obligations.StopCellEffect : Prop :=
  ∀ s : State, s.phase = .wStop → s.rstAt = [] → s.WireFree s.bp.toNat →
    exec .stop s = .next { s with
      dir := .input
      olat := .low
      im := false
      now := s.now + BitVec.ofNat 64 s.bp.toNat
      phase := .idle
      rspValid := true
      rspData := 0
      rspErr := .ok
      draws := s.draws + 1
      trace := ⟨s.now + BitVec.ofNat 64 s.bp.toNat, .unmask⟩ ::
        ⟨s.now + BitVec.ofNat 64 s.bp.toNat, .setLevel .low⟩ ::
        ⟨s.now + BitVec.ofNat 64 s.bp.toNat, .setDirection .input⟩ ::
        ⟨s.now, .setLevel .high⟩ :: ⟨s.now, .mask⟩ :: s.trace }

/-- spec/20_memory.md R48, spec/60_exceptions.md R166 RF10: a cell during which another agent drives the wire is
refused, for every cell a transmitter drives. (That the whole span of the cell counts is the model's reading, log 6.) -/
def Obligations.ContentionIsRefused : Prop :=
  ∀ (s : State) (u : Nat), s.rstAt = [] → s.now.toNat ≤ u → u < s.now.toNat + s.bp.toNat →
    (s.plat.env.at u).drives = true →
    (s.phase = .wStart → exec .start s = .refused .contention) ∧
    (s.phase = .wBit → exec .bitw1 s = .refused .contention ∧ exec .bitw0 s = .refused .contention) ∧
    (s.phase = .wStop → s.dir = .output → exec .stop s = .refused .contention)

/-- spec/41_transmit.md R106, R107, R111, spec/30_encoding.md R74: the frame of the byte being transmitted is a fault-free
whole: ten cells, `10 * BP` and the extra times of the eight data holds, exactly ten `setDirection`, eleven
`setLevel`, ten MASK, ten UNMASK and no `readLevel`, and the end state of a WRITE; nothing else changes.
(That FRAME means these ten cells is the model's reading, log 10.) -/
def Obligations.FrameCompletes : Prop :=
  ∀ s : State, s.phase = .wStart → s.NoReset → s.ClockFits (10 * s.bp.toNat + 8 * s.plat.jOpen) →
    s.WireFree (10 * s.bp.toNat + 8 * s.plat.jOpen) →
    ∃ (d : Nat) (ev : List PinEvent),
      exec (.frame s.txb) s = .next { s with
        dir := .input
        olat := .low
        im := false
        now := s.now + BitVec.ofNat 64 d
        phase := .idle
        idx := 8
        rspValid := true
        rspData := 0
        rspErr := .ok
        draws := s.draws + 10
        trace := ev ++ s.trace } ∧
      10 * s.bp.toNat ≤ d ∧ d ≤ 10 * s.bp.toNat + 8 * s.plat.jOpen ∧
      countOps .directions ev = 10 ∧ countOps .levels ev = 11 ∧ countOps .samples ev = 0 ∧
      countOps .masks ev = 10 ∧ countOps .unmasks ev = 10

/-- spec/30_encoding.md R74, spec/10_state.md R20: running the frame as a whole is running its ten cells one step
each, whatever comes of them: the same end state, or the same refusal. (The two grains are the model's, log 3, log 10.) -/
def Obligations.FrameIsItsTenCells : Prop :=
  ∀ s : State, s.phase = .wStart → s.Undisturbed → s.rspValid = false → s.wholeFrame = false →
    steps 10 s = exec (.frame s.txb) s

/-- spec/41_transmit.md R100, R106, R107: a WRITE presented to an idle configured driver runs its ten cells one step
each and completes, whatever the byte and the preemption, after `10 * BP` and the extra times of its eight holds. -/
def Obligations.WriteRunsItsTenCells : Prop :=
  ∀ (byte : Byte) (s : State), s.phase = .idle → s.bound = true → s.configured = true → s.NoReset →
    s.cmdValid = true → Code.cmd s.cmd = encode (.write byte) → s.wholeFrame = false →
    s.ClockFits (10 * s.bp.toNat + 8 * s.plat.jOpen) → s.WireFree (10 * s.bp.toNat + 8 * s.plat.jOpen) →
    ∃ t, steps 11 s = .next t ∧
      (∃ d, 10 * s.bp.toNat ≤ d ∧ d ≤ 10 * s.bp.toNat + 8 * s.plat.jOpen ∧ t.now = s.now + BitVec.ofNat 64 d) ∧
      t.dir = .input ∧ t.olat = .low ∧ t.im = false ∧ t.phase = .idle ∧ t.busy = false ∧
      t.txb = byte ∧ t.idx = 8 ∧ t.rspValid = true ∧ t.rspData = 0 ∧ t.rspErr = .ok ∧
      t.pin = s.pin ∧ t.bound = true ∧ t.bp = s.bp ∧ t.configured = true ∧ t.timedOut = s.timedOut ∧
      t.cfgf = s.cfgf ∧ t.rxb = s.rxb ∧ t.t0 = s.t0 ∧ t.plat = s.plat ∧ t.program = s.program

/-- spec/41_transmit.md R110: with ideal timing the wire during a WRITE of `b` carries, cell by cell, the pattern
`0abcdefgh1`, each cell one bit-period, and is released at `10 * BP`. -/
def Obligations.WriteWaveform : Prop :=
  ∀ (byte : Byte) (s : State), s.phase = .idle → s.bound = true → s.configured = true → s.NoReset →
    s.cmdValid = true → Code.cmd s.cmd = encode (.write byte) → s.wholeFrame = false → s.Ideal →
    1 ≤ s.bp.toNat → s.ClockFits (10 * s.bp.toNat) → s.WireFree (10 * s.bp.toNat) →
    ∃ (t : State) (ev : List PinEvent), steps 11 s = .next t ∧ t.trace = ev ++ s.trace ∧
      (∀ u, s.now.toNat ≤ u → u < s.now.toNat + 10 * s.bp.toNat →
        wireAt s.plat.env (s.dir, s.olat) ev u = frameLevel byte ((u - s.now.toNat) / s.bp.toNat)) ∧
      ∀ u, s.now.toNat + 10 * s.bp.toNat ≤ u →
        wireAt s.plat.env (s.dir, s.olat) ev u = s.plat.env.levelAt u

/-- spec/41_transmit.md R109, spec/43_timing_primitives.md R144: with ideal timing the interrupts are suppressed during
the start cell and the stop cell of a WRITE and at no other microsecond of it. -/
def Obligations.WriteMasksStartAndStop : Prop :=
  ∀ (byte : Byte) (s : State), s.phase = .idle → s.bound = true → s.configured = true → s.NoReset →
    s.cmdValid = true → Code.cmd s.cmd = encode (.write byte) → s.wholeFrame = false → s.Ideal → s.im = false →
    1 ≤ s.bp.toNat → s.ClockFits (10 * s.bp.toNat) → s.WireFree (10 * s.bp.toNat) →
    ∃ (t : State) (ev : List PinEvent), steps 11 s = .next t ∧ t.trace = ev ++ s.trace ∧
      ∀ u, s.now.toNat ≤ u → u ≤ s.now.toNat + 10 * s.bp.toNat →
        (maskedAt false ev u = true ↔ u < s.now.toNat + s.bp.toNat ∨
          s.now.toNat + 9 * s.bp.toNat ≤ u ∧ u < s.now.toNat + 10 * s.bp.toNat)

/-! ### Receive -/

/-- spec/42_receive.md R120: an idle configured driver accepts a READ, clears the accumulator and the flag, captures
the time, goes to `R_POLL`, and changes nothing else. That the samples follow as steps of their own
(`SamplesAreOneBitPeriodApart`) is the model's reading, log 3. -/
def Obligations.ReadIsAccepted : Prop :=
  ∀ s : State, s.phase = .idle → s.bound = true → s.configured = true →
    ∃ t, exec .read s = .next t ∧ t = { s with rxb := 0, timedOut := false, t0 := s.now, phase := .rPoll } ∧
      t.busy = true ∧ t.cmdReady = false

/-- spec/42_receive.md R121, spec/60_exceptions.md R169: one turn of POLL in input mode. The level is tested first: a
Low leaves with a start detected, whatever the time; then the timeout, at equality too, which sets `TO`; else
`POLL_STEP` and an extra time of at most `J_OPEN` pass. (One turn a step: log 3.) -/
def Obligations.PollTurnEffect : Prop :=
  ∀ s : State, s.phase = .rPoll → s.dir = .input → s.rstAt = [] →
    (s.plat.env.levelAt s.now.toNat = .low →
      exec .poll s = .next { s with phase := .rAlign, trace := ⟨s.now, .sample .low⟩ :: s.trace }) ∧
    (s.plat.env.levelAt s.now.toNat = .high → (timeout s.bp).toNat ≤ (s.now - s.t0).toNat →
      exec .poll s = .next { s with
        timedOut := true
        phase := .rAlign
        trace := ⟨s.now, .sample .high⟩ :: s.trace }) ∧
    (s.plat.env.levelAt s.now.toNat = .high → (s.now - s.t0).toNat < (timeout s.bp).toNat →
      ∃ j, j ≤ (if s.im then 0 else s.plat.jOpen) ∧ exec .poll s = .next { s with
        now := s.now + BitVec.ofNat 64 (1 + j)
        draws := s.draws + 1
        trace := ⟨s.now, .sample .high⟩ :: s.trace })

/-- spec/42_receive.md R124: ALIGN waits `BP + BP/2`, truncating, and an extra time of at most `J_OPEN`, with interrupts
enabled; it touches no pin register. -/
def Obligations.AlignEffect : Prop :=
  ∀ s : State, s.phase = .rAlign → s.dir = .input → s.im = false → s.rstAt = [] →
    ∃ j, j ≤ s.plat.jOpen ∧ exec .align s = .next { s with
      now := s.now + BitVec.ofNat 64 ((alignDelay s.bp).toNat + j)
      phase := .rBit
      idx := 0
      draws := s.draws + 1 }

/-- spec/42_receive.md R125, R126: BITR makes the pin an input, samples it, holds outside the critical section for one
bit-period and an extra time of at most `J_OPEN`, and ORs the bit into its place; after bit 7 the READ completes
and answers the byte with OK. -/
def Obligations.SampleCellEffect : Prop :=
  ∀ s : State, s.phase = .rBit → s.rstAt = [] →
    ∃ j, j ≤ s.plat.jOpen ∧
      let v := s.plat.env.levelAt s.now.toNat
      let byte := s.rxb ||| ((BitVec.ofBool v.bit).setWidth 8 <<< s.idx.toNat)
      let t := { s with
        dir := .input
        im := false
        now := s.now + BitVec.ofNat 64 (s.bp.toNat + j)
        rxb := byte
        draws := s.draws + 1
        trace := ⟨s.now, .unmask⟩ :: ⟨s.now, .sample v⟩ :: ⟨s.now, .setDirection .input⟩ ::
          ⟨s.now, .mask⟩ :: s.trace }
      exec .bitr s = .next (if s.idx.toNat < 7 then { t with idx := s.idx + 1 } else
        { t with idx := 8, phase := .idle, rspValid := true, rspData := byte, rspErr := .ok })

/-- spec/42_receive.md R122, R123: start detection ends, whatever the wire and the preemption: within `10 * BP + 1`
turns and not later than `J_OPEN` after the timeout; it leaves for alignment on both exits, with `TO` set exactly
when the wire is High at that instant. -/
def Obligations.StartDetectionEnds : Prop :=
  ∀ s : State, s.phase = .rPoll → s.Undisturbed → s.dir = .input → s.timedOut = false →
    s.bp.toNat ≤ 1000000 → s.t0.toNat ≤ s.now.toNat → s.ClockFits (10 * s.bp.toNat + 1 + s.plat.jOpen) →
    ∃ (k : Nat) (t : State), k ≤ 10 * s.bp.toNat + 1 ∧ steps k s = .next t ∧ t.phase = .rAlign ∧
      s.now.toNat ≤ t.now.toNat ∧
      t.now.toNat ≤ max s.now.toNat (s.t0.toNat + 10 * s.bp.toNat + s.plat.jOpen) ∧
      (t.timedOut = true ↔ s.plat.env.levelAt t.now.toNat = .high) ∧
      (t.timedOut = true → s.t0.toNat + 10 * s.bp.toNat ≤ t.now.toNat) ∧
      t.dir = .input ∧ t.olat = s.olat ∧ t.rxb = s.rxb ∧ t.bp = s.bp ∧ t.plat = s.plat

/-- spec/42_receive.md R126, R127, R129, R130: with ideal timing the eight samples are taken one bit-period apart, the
first `BP + BP/2` after start detection, whatever the wire; bit `i` of the answer is the level at sample `i`, and
the READ completes one bit-period after the last, the wire never driven. -/
def Obligations.SamplesAreOneBitPeriodApart : Prop :=
  ∀ s : State, s.phase = .rAlign → s.Undisturbed → s.Ideal → s.dir = .input → s.im = false → s.rxb = 0 →
    s.bp.toNat ≤ 1000000 → s.ClockFits (10 * s.bp.toNat) →
    ∃ t, steps 9 s = .next t ∧ t.phase = .idle ∧
      (∀ i, i < 8 → t.rxb.getLsbD i =
        (s.plat.env.levelAt (s.now.toNat + (s.bp.toNat + s.bp.toNat / 2) + i * s.bp.toNat)).bit) ∧
      t.rspValid = true ∧ t.rspData = t.rxb ∧ t.rspErr = .ok ∧ t.idx = 8 ∧
      t.now.toNat = s.now.toNat + s.bp.toNat / 2 + 9 * s.bp.toNat ∧
      t.dir = .input ∧ t.im = false ∧ t.busy = false ∧ t.olat = s.olat ∧ t.pin = s.pin ∧ t.bp = s.bp ∧
      t.configured = s.configured ∧ t.cfgf = s.cfgf ∧ t.timedOut = s.timedOut ∧
      ∃ ev, t.trace = ev ++ s.trace ∧ countOps .samples ev = 8 ∧ countOps .directions ev = 8 ∧
        countOps .levels ev = 0 ∧ countOps .masks ev = 8 ∧ countOps .unmasks ev = 8

/-- spec/42_receive.md R122, R123, R128: a READ on a wire held High does not block: with ideal timing start detection
times out after `10 * BP`, the eight cells are sampled all the same, and the READ answers `0xFF` with OK and
`TO = 1` after `10 * BP + BP + BP/2 + 8 * BP`. (The model follows reading A of spec/90_conflicts.md C1, log 12.) -/
def Obligations.ReadOfAHighWireTimesOut : Prop :=
  ∀ s : State, s.phase = .idle → s.bound = true → s.configured = true → s.NoReset → s.cmdValid = true →
    Code.cmd s.cmd = encode .read → s.Ideal → s.dir = .input → s.im = false →
    1 ≤ s.bp.toNat → s.bp.toNat ≤ 1000000 → s.ClockFits (20 * s.bp.toNat) →
    s.plat.env.Holds .high s.now.toNat (s.now.toNat + 20 * s.bp.toNat + 1) →
    ∃ (k : Nat) (t : State), steps k s = .next t ∧ t.phase = .idle ∧ t.rspValid = true ∧ t.rspData = 0xFF#8 ∧
      t.rspErr = .ok ∧ t.timedOut = true ∧
      t.now.toNat = s.now.toNat + 10 * s.bp.toNat + (s.bp.toNat + s.bp.toNat / 2) + 8 * s.bp.toNat

/-- spec/70_reset_and_hazards.md R205: a READ on a wire stuck Low starts at once and answers `0x00` with OK and `TO = 0`
after `BP + BP/2 + 8 * BP`. -/
def Obligations.ReadOfALowWireAnswersZero : Prop :=
  ∀ s : State, s.phase = .idle → s.bound = true → s.configured = true → s.NoReset → s.cmdValid = true →
    Code.cmd s.cmd = encode .read → s.Ideal → s.dir = .input → s.im = false → s.bp.toNat ≤ 1000000 →
    s.ClockFits (10 * s.bp.toNat) →
    s.plat.env.Holds .low s.now.toNat (s.now.toNat + 10 * s.bp.toNat + 1) →
    ∃ t, steps 11 s = .next t ∧ t.phase = .idle ∧ t.rspValid = true ∧ t.rspData = 0 ∧ t.rspErr = .ok ∧
      t.timedOut = false ∧ t.t0 = s.now ∧
      t.now.toNat = s.now.toNat + (s.bp.toNat + s.bp.toNat / 2) + 8 * s.bp.toNat

/-- spec/42_receive.md R130, spec/95_test_vectors.md S2 and V-R10: with ideal timing, a peer that sends the frame of any
byte, its start edge within `10 * BP` of the READ's beginning, is received: the READ answers the byte with
`TO = 0`, half a bit-period before the stop cell ends. -/
def Obligations.PeerFrameIsReceived : Prop :=
  ∀ (byte : Byte) (te : Nat) (s : State), s.phase = .idle → s.bound = true → s.configured = true → s.NoReset →
    s.cmdValid = true → Code.cmd s.cmd = encode .read → s.Ideal → s.dir = .input → s.im = false →
    1 ≤ s.bp.toNat → s.bp.toNat ≤ 1000000 → s.now.toNat ≤ te → te ≤ s.now.toNat + 10 * s.bp.toNat →
    s.ClockFits (20 * s.bp.toNat) → s.plat.env.Holds .high s.now.toNat te →
    s.plat.env.Sends byte te s.bp.toNat →
    ∃ (k : Nat) (t : State), steps k s = .next t ∧ t.phase = .idle ∧ t.rspValid = true ∧ t.rspData = byte ∧
      t.rxb = byte ∧ t.rspErr = .ok ∧ t.timedOut = false ∧
      t.now.toNat = te + s.bp.toNat / 2 + 9 * s.bp.toNat

/-- spec/70_reset_and_hazards.md R201, spec/42_receive.md R130: whatever the extra times of the nine preemptible waits, a
frame whose start edge was detected `s.now - te` late is received as long as that lateness, half a bit-period and
eight times `J_OPEN` stay under one bit-period. -/
def Obligations.PreemptedReadWithinBudget : Prop :=
  ∀ (byte : Byte) (te : Nat) (s : State), s.phase = .rAlign → s.Undisturbed → s.dir = .input → s.im = false →
    s.rxb = 0 → s.bp.toNat ≤ 1000000 → te ≤ s.now.toNat →
    (s.now.toNat - te) + s.bp.toNat / 2 + 8 * s.plat.jOpen < s.bp.toNat →
    s.ClockFits (10 * s.bp.toNat + 9 * s.plat.jOpen) → s.plat.env.Sends byte te s.bp.toNat →
    ∃ t, steps 9 s = .next t ∧ t.phase = .idle ∧ t.rspValid = true ∧ t.rspData = byte ∧ t.rspErr = .ok ∧
      s.now.toNat + s.bp.toNat / 2 + 9 * s.bp.toNat ≤ t.now.toNat ∧
      t.now.toNat ≤ s.now.toNat + s.bp.toNat / 2 + 9 * s.bp.toNat + 9 * s.plat.jOpen

/-- spec/95_test_vectors.md S2 and P4 (the source's round trip): two drivers on one wire, with the same bit-period and
ideal timing. One WRITEs any byte; the other, polling since at most `10 * BP` before, takes the wire the first one
makes for its environment, and READs that byte. -/
def Obligations.RoundTripOfTwoDrivers : Prop :=
  ∀ (byte : Byte) (a b : State),
    a.phase = .idle → a.bound = true → a.configured = true → a.NoReset → a.cmdValid = true →
    Code.cmd a.cmd = encode (.write byte) → a.wholeFrame = false → a.Ideal → a.ClockFits (10 * a.bp.toNat) →
    a.WireFree (10 * a.bp.toNat) →
    b.phase = .idle → b.bound = true → b.configured = true → b.NoReset → b.cmdValid = true →
    Code.cmd b.cmd = encode .read → b.Ideal → b.dir = .input → b.im = false → b.bp = a.bp →
    1 ≤ a.bp.toNat → a.bp.toNat ≤ 1000000 → b.ClockFits (20 * a.bp.toNat) →
    b.now.toNat ≤ a.now.toNat → a.now.toNat ≤ b.now.toNat + 10 * a.bp.toNat →
    ∃ (a' : State) (ev : List PinEvent), steps 11 a = .next a' ∧ a'.trace = ev ++ a.trace ∧
      (b.plat.env.Holds .high b.now.toNat a.now.toNat →
       (∀ u, a.now.toNat ≤ u → u < a.now.toNat + 10 * a.bp.toNat →
          b.plat.env.levelAt u = wireAt a.plat.env (a.dir, a.olat) ev u) →
       ∃ (k : Nat) (b' : State), steps k b = .next b' ∧ b'.phase = .idle ∧ b'.rspValid = true ∧
          b'.rspData = byte ∧ b'.timedOut = false)

/-- spec/42_receive.md R132: no step of a READ drives the wire or writes the latch. -/
def Obligations.ReadNeverDrives : Prop :=
  ∀ (i : Instr) (s t : State), i = .read ∨ i = .poll ∨ i = .align ∨ i = .bitr → s.rstAt = [] →
    exec i s = .next t →
    t.olat = s.olat ∧ (s.dir = .input → t.dir = .input) ∧
    ∃ ev, t.trace = ev ++ s.trace ∧
      ∀ e ∈ ev, e.op ≠ .setDirection .output ∧ ∀ l, e.op ≠ .setLevel l

/-! ### The whole machine -/

/-- spec/10_state.md R28, R15, R18, R25, R21, R23, R12 and spec/43_timing_primitives.md R143 as one invariant: every
step of every sound state leaves a sound state. Two fields of `Sound` say more than the rules: `error_iff`, that
`rsp_err` keeps E_CFG all through `FAULTED`, and `pulse`, that `rsp_valid` stands until the next step, are the model's
choice (log 19); what the response outputs and `IDX` are after a reset is its choice too (log 1). -/
def Obligations.EveryStepKeepsSoundness : Prop :=
  ∀ s t : State, Sound s → step s = .next t → Sound t

/-- The state after reset is sound. For the elements to which spec/10_state.md R29 gives a value that is the rule's;
that `IDX` is 0 (`idx_le`), `rsp_err` OK (`error_iff`) and `rsp_valid` 0 (`pulse`) there is the model's choice
(log 1). -/
def Obligations.ResetStateIsSound : Prop := Sound State.reset

/-- spec/10_state.md R29, spec/70_reset_and_hazards.md R190: what reset leaves, for every element the spec gives a value. -/
def Obligations.ResetValues : Prop :=
  State.reset.phase = .unbound ∧ State.reset.bound = false ∧ State.reset.configured = false ∧
  State.reset.dir = .input ∧ State.reset.im = false ∧ State.reset.status = 0#3

/-- spec/43_timing_primitives.md R143: critical sections do not nest and do not span instructions: from an unmasked state
every instruction that gives a next state performs MASK and UNMASK strictly in turn, beginning with MASK, and
leaves `IM = 0`. -/
def Obligations.CriticalSectionsNeverNest : Prop :=
  ∀ (i : Instr) (s t : State), s.im = false → exec i s = .next t →
    t.im = false ∧ ∃ ev, t.trace = ev ++ s.trace ∧ sections false (ev.reverse.map PinEvent.op) = some false

/-- spec/10_state.md R31: no step writes the parameters of the step relation. -/
def Obligations.ParametersAreNeverWritten : Prop :=
  ∀ s t : State, step s = .next t → t.plat = s.plat

/-- spec/10_state.md R11, spec/40_configuration.md R92: without a reset, `PIN` and `BOUND` are written by BIND alone, and by
a BIND only while not bound. -/
def Obligations.PinIsWrittenOnceByBind : Prop :=
  ∀ (i : Instr) (s t : State), s.NoReset → exec i s = .next t →
    t.pin ≠ s.pin ∨ t.bound ≠ s.bound → s.bound = false ∧ ∃ pin, i = .bind pin ∧ t.pin = pin ∧ t.bound = true

/-- spec/10_state.md R13, R15, R16, R18, R21, spec/42_receive.md R133: without a reset, each register of the driver but
`PHASE` is written by its own operations alone: `BP` and `CONFIGURED` by CONFIGURE, `CFGF` by BIND, `TO` and `RXB` by
READ and its micro-operations, `T0` by READ, `TXB` by WRITE, `DIR` by BIND, the cells of a WRITE and BITR, `OLAT` by
the cells of a WRITE alone, `IM`, which every one of them leaves 0, by those cells and BITR, `IDX` by the cells that
enter or go through the data bits, the response by what completes an operation; and no command takes time. (`PIN` and
`BOUND`: `PinIsWrittenOnceByBind`. FRAME as the cells of a WRITE: log 10.) -/
def Obligations.RegistersHaveTheirWriters : Prop :=
  ∀ (i : Instr) (s t : State), s.NoReset → exec i s = .next t →
    (t.bp ≠ s.bp ∨ t.configured ≠ s.configured → ∃ baud, i = .configure baud) ∧
    (t.cfgf ≠ s.cfgf → ∃ pin, i = .bind pin) ∧
    (t.timedOut ≠ s.timedOut → i = .read ∧ t.timedOut = false ∨ i = .poll ∧ t.timedOut = true) ∧
    (t.rxb ≠ s.rxb → i = .read ∨ i = .bitr) ∧ (t.t0 ≠ s.t0 → i = .read) ∧
    (t.txb ≠ s.txb → ∃ byte, i = .write byte) ∧
    (t.dir ≠ s.dir → (∃ pin, i = .bind pin) ∨ i = .start ∨ i = .bitw1 ∨ i = .bitw0 ∨ i = .stop ∨
      (∃ byte, i = .frame byte) ∨ i = .bitr) ∧
    (t.olat ≠ s.olat → i = .start ∨ i = .bitw1 ∨ i = .bitw0 ∨ i = .stop ∨ ∃ byte, i = .frame byte) ∧
    (t.im ≠ s.im → t.im = false ∧
      (i = .start ∨ i = .bitw1 ∨ i = .bitw0 ∨ i = .stop ∨ (∃ byte, i = .frame byte) ∨ i = .bitr)) ∧
    (t.idx ≠ s.idx → i = .start ∨ i = .bitw1 ∨ i = .bitw0 ∨ (∃ byte, i = .frame byte) ∨ i = .align ∨ i = .bitr) ∧
    (t.rspValid ≠ s.rspValid ∨ t.rspData ≠ s.rspData ∨ t.rspErr ≠ s.rspErr → (∃ pin, i = .bind pin) ∨
      (∃ baud, i = .configure baud) ∨ i = .stop ∨ (∃ byte, i = .frame byte) ∨ i = .bitr) ∧
    (t.now ≠ s.now → (∀ pin, i ≠ .bind pin) ∧ (∀ baud, i ≠ .configure baud) ∧ (∀ byte, i ≠ .write byte) ∧ i ≠ .read)

/-- spec/43_timing_primitives.md R147: `now` never goes back: one step takes no longer than ten cells of the longest
bit-period with their extra times, and no step takes time off. -/
def Obligations.ClockNeverGoesBack : Prop :=
  ∀ s t : State, s.ClockFits (10 * (2 ^ 32 + s.plat.jOpen)) → step s = .next t →
    s.now.toNat ≤ t.now.toNat ∧ t.now.toNat ≤ s.now.toNat + 10 * (2 ^ 32 + s.plat.jOpen)

/-- spec/60_exceptions.md R171, R170: nothing leaves `FAULTED` but a reset, whatever the caller's program: a step of a
faulted block takes the reset that is due, or refuses the command that is presented, at the port or by the program,
or lets time pass while a reset is to come, or the run has ended by fault; so a next state is `FAULTED` still, or
the reset's. (That a step then answers a fault is the model's reading, log 14; port and program: log 8.) -/
def Obligations.OnlyResetLeavesFaulted : Prop :=
  ∀ s : State, s.phase = .faulted →
    (s.resetDue = true → step s = .next s.underReset ∧ s.underReset.phase = .unbound ∧ s.underReset.cfgf = false) ∧
    (s.resetDue = false → s.cmdValid = true → step s = .refused .faulted) ∧
    (∀ head rest, s.resetDue = false → s.cmdValid = false → s.program = head :: rest →
      head.due.toNat ≤ s.now.toNat → step s = .refused .faulted) ∧
    (s.resetDue = false → s.NothingPresented →
      step s = if s.rstAt = [] then .fault .configurationFailure
        else .next { s with rspValid := false, now := s.now + 1 }) ∧
    (∀ t, step s = .next t → t.phase = .faulted ∧ t.cfgf = s.cfgf ∨ s.resetDue = true ∧ t = s.underReset)

/-- spec/70_reset_and_hazards.md R190: reset may come at any time. An assertion that is due is taken before anything
else; one that falls inside a hold or inside ALIGN, and one that falls inside the time that any instruction at all
would have taken without it (a turn of POLL, a frame run whole, an extra time), cuts it at its microsecond. Either way
the operation is abandoned, the bus is released, the critical section is ended, the clock is not touched, the block is
as after reset, and the input stays asserted until its release. (Which of two events of one microsecond comes first is
the model's choice, log 9.) -/
def Obligations.ResetAbandonsAnything : Prop :=
  (∀ (s : State) (r : ResetSpan) (rest : List ResetSpan), s.rst = none → s.rstAt = r :: rest →
    r.start.toNat ≤ s.now.toNat →
    ∃ t, step s = .next t ∧ t.AsAfterReset ∧ t.now = s.now ∧ t.rst = some r.release ∧ t.rstAt = rest ∧
      t.plat = s.plat) ∧
  (∀ (i : Instr) (p : Phase) (s : State) (r : ResetSpan) (rest : List ResetSpan),
    (i, p) ∈ [(Instr.start, Phase.wStart), (.bitw1, .wBit), (.bitw0, .wBit), (.stop, .wStop), (.bitr, .rBit)] →
    s.phase = p → s.rstAt = r :: rest → s.now.toNat ≤ r.start.toNat → r.start.toNat < s.now.toNat + s.bp.toNat →
    s.WireFree (r.start.toNat - s.now.toNat) →
    ∃ t, exec i s = .next t ∧ t.AsAfterReset ∧ t.now = r.start ∧ t.rst = some r.release ∧ t.rstAt = rest ∧
      t.plat = s.plat) ∧
  (∀ (s : State) (r : ResetSpan) (rest : List ResetSpan), s.phase = .rAlign → s.dir = .input → s.rstAt = r :: rest →
    s.now.toNat ≤ r.start.toNat → r.start.toNat < s.now.toNat + (alignDelay s.bp).toNat →
    ∃ t, exec .align s = .next t ∧ t.AsAfterReset ∧ t.now = r.start ∧ t.rst = some r.release ∧ t.rstAt = rest ∧
      t.plat = s.plat) ∧
  (∀ (i : Instr) (s u : State) (r : ResetSpan) (rest : List ResetSpan), s.rst = none → s.rstAt = r :: rest →
    s.ClockFits (10 * (2 ^ 32 + s.plat.jOpen)) → s.now.toNat ≤ r.start.toNat →
    exec i { s with rstAt := [] } = .next u → r.start.toNat < u.now.toNat →
    ∃ t, exec i s = .next t ∧ t.AsAfterReset ∧ t.now = r.start ∧ t.rst = some r.release ∧ t.rstAt = rest ∧
      t.plat = s.plat)

/-- spec/10_state.md R26: with nothing presented and no reset due, an unbound or idle block changes nothing but the
clock (and its response pulse is over). A microsecond a step is the model's choice (log 8), as is the pulse (log 19). -/
def Obligations.IdleChangesOnlyTheClock : Prop :=
  ∀ s : State, s.phase = .unbound ∨ s.phase = .idle → s.resetDue = false → s.NothingPresented →
    step s = .next { s with now := s.now + 1, rspValid := false }

/-- A step runs the decoded instruction (spec/20_memory.md R61, R62, R57; spec/70_reset_and_hazards.md R211): a command at
the port of a ready block; the head of the caller's program once it is due; while a transfer is in progress the
micro-operation its `PHASE` selects, the caller's program waiting. The response pulse of the step before is over.
(Port, program and pulse in this form are the model's choice: log 8, log 19.) -/
def Obligations.StepRunsTheDecodedInstruction : Prop :=
  (∀ (s : State) (i : Instr), s.resetDue = false → s.cmdReady = true → s.cmdValid = true →
    decode (.cmd s.cmd) = .ok i → step s = exec i { s with cmdValid := false, rspValid := false }) ∧
  (∀ (s : State) (i : Instr) (head : Issue) (rest : List Issue), s.resetDue = false → s.cmdReady = true →
    s.cmdValid = false → s.program = head :: rest → head.due.toNat ≤ s.now.toNat →
    decode (.cmd head.word) = .ok i → step s = exec i { s with program := rest, rspValid := false }) ∧
  (∀ (s : State) (c : Code) (i : Instr), s.resetDue = false → s.cmdValid = false → s.selected = some c →
    decode c = .ok i → step s = exec i { s with rspValid := false })

/-- spec/10_state.md R20, spec/41_transmit.md R104, spec/30_encoding.md R76: which instruction a transfer's position
selects: at `W_BIT` the one the bit `TXB[IDX]` names. (The codes of the cells are the model's, log 10, log 11.) -/
def Obligations.PositionSelectsTheMicroOperation : Prop :=
  ∀ s : State, s.busy = true → ∃ c i, s.selected = some c ∧ decode c = .ok i ∧
    (s.phase = .wStart → i = if s.wholeFrame then .frame s.txb else .start) ∧
    (s.phase = .wBit → i = if s.txb.getLsbD s.idx.toNat then .bitw1 else .bitw0) ∧
    (s.phase = .wStop → i = .stop) ∧ (s.phase = .rPoll → i = .poll) ∧ (s.phase = .rAlign → i = .align) ∧
    (s.phase = .rBit → i = .bitr)

/-- spec/60_exceptions.md R166 RF1, spec/20_memory.md R57: a command presented while a transfer is in progress is refused,
whatever the command. -/
def Obligations.OverlappingCommandIsRefused : Prop :=
  ∀ s : State, s.busy = true → s.cmdValid = true → s.resetDue = false → step s = .refused .busy

/-- spec/30_encoding.md R83: the caller cannot invoke a micro-operation: no command word decodes to one, and outside the
position that selects it each is refused (under the model's name, log 11). R83 does not name FRAME: that it too is
refused outside `W_START`, and for a byte other than `TXB`, is the model's reading (log 10). -/
def Obligations.MicroOperationsAreNotCallable : Prop :=
  (∀ (w : CmdWord) (i : Instr), decode (.cmd w) = .ok i →
    (∃ pin, i = .bind pin) ∨ (∃ baud, i = .configure baud) ∨ (∃ byte, i = .write byte) ∨ i = .read) ∧
  (∀ s : State,
    (s.phase ≠ .wStart → exec .start s = .refused .notCallable ∧ ∀ b, exec (.frame b) s = .refused .notCallable) ∧
    (s.phase ≠ .wBit → exec .bitw1 s = .refused .notCallable ∧ exec .bitw0 s = .refused .notCallable) ∧
    (s.phase ≠ .wStop → exec .stop s = .refused .notCallable) ∧
    (s.phase ≠ .rPoll → exec .poll s = .refused .notCallable) ∧
    (s.phase ≠ .rAlign → exec .align s = .refused .notCallable) ∧
    (s.phase ≠ .rBit → exec .bitr s = .refused .notCallable) ∧
    (∀ b, s.txb ≠ b → exec (.frame b) s = .refused .notCallable))

/-- spec/10_state.md R25, spec/20_memory.md R62: `BUSY` is 1 exactly while `PHASE` is none of `UNBOUND`, `IDLE`,
`FAULTED`; `cmd_ready` is its negation but for `FAULTED`; `status` is `TO`, `CFGF`, `BUSY`, highest bit first. -/
def Obligations.StatusAndReady : Prop :=
  ∀ s : State,
    (s.busy = true ↔ s.phase ≠ .unbound ∧ s.phase ≠ .idle ∧ s.phase ≠ .faulted) ∧
    (s.cmdReady = true ↔ s.busy = false ∧ s.phase ≠ .faulted) ∧
    s.status.getLsbD 2 = s.timedOut ∧ s.status.getLsbD 1 = s.cfgf ∧ s.status.getLsbD 0 = s.busy

/-! ### The pin register space, the line and the waits -/

/-- spec/20_memory.md R40 to R43: a location that is written reads as written, every other stored location as before,
`PINLVL` cannot be written (the fault is the model's, log 20); the HAL operations are such writes. -/
def Obligations.PinRegisterSpace : Prop :=
  (∀ (s t : State) (r q : PinReg) (v : Bool), s.memWrite r v = .ok t → q ≠ .pinlvl →
    t.memRead q = if q = r then v else s.memRead q) ∧
  (∀ (s : State) (v : Bool), s.memWrite .pinlvl v = .error .readOnlyPinRegister) ∧
  (∀ (s : State) (d : Dir), s.memWrite .dir d.bit = .ok { s with dir := d } ∧
    s.setDirection d = { s with dir := d, trace := ⟨s.now, .setDirection d⟩ :: s.trace }) ∧
  (∀ (s : State) (l : Level), s.memWrite .olat l.bit = .ok { s with olat := l } ∧
    s.setLevel l = { s with olat := l, trace := ⟨s.now, .setLevel l⟩ :: s.trace }) ∧
  (∀ s : State, s.readLevel.bit = s.memRead .pinlvl)

/-- spec/20_memory.md R45: the line is the latch while the driver alone drives it and what the environment gives while
the pin is an input; a level written to an input pin does not reach the wire. -/
def Obligations.LineFollowsTheDriverOrTheEnvironment : Prop :=
  ∀ s : State,
    (s.dir = .output → (s.plat.env.at s.now.toNat).drives = false → s.line = s.olat) ∧
    (s.dir = .input → s.line = s.plat.env.levelAt s.now.toNat) ∧
    (s.dir = .input → ∀ l, (s.setLevel l).line = s.line) ∧
    (∀ l, (s.plat.env.at s.now.toNat).drives = false → ((s.setLevel l).setDirection .output).line = l)

/-- spec/43_timing_primitives.md R140, R141: an undisturbed DELAY lasts exactly `d` with interrupts suppressed, and `d` and
an extra time of at most `J_OPEN`, never less than `d`, with interrupts enabled; it changes nothing else. -/
def Obligations.DelayLastsItsTime : Prop :=
  ∀ (s : State) (d : Nat), s.rstAt = [] → s.WireFree (d + s.plat.jOpen) →
    ∃ j, j ≤ s.plat.jOpen ∧ (s.im = true → j = 0) ∧
      s.delay d = .done { s with now := s.now + BitVec.ofNat 64 (d + j), draws := s.draws + 1 }

/-! ### Encoding -/

/-- spec/30_encoding.md R71, R72, R74: decoding the encoding of an instruction gives it back, for every instruction and
every operand; every command word and every frame that decodes is the one encoding of what it decodes to; and no
two instructions share a code. (The places of the cells are the model's, log 11.) -/
def Obligations.DecodeAndEncodeAgree : Prop :=
  (∀ i : Instr, decode (encode i) = .ok i) ∧
  (∀ (w : CmdWord) (i : Instr), decode (.cmd w) = .ok i → encode i = .cmd w) ∧
  (∀ (w : FrameWord) (i : Instr), decode (.wire w) = .ok i → encode i = .wire w) ∧
  (∀ i j : Instr, encode i = encode j → i = j)

/-- spec/30_encoding.md R74, R75, R76: the frame of a byte, cell by cell: Low, the eight bits least significant first with
level equal to bit value, High. -/
def Obligations.FrameCellsOfAByte : Prop :=
  ∀ b : Byte, frameLevel b 0 = .low ∧ (∀ i, i < 8 → (frameLevel b (i + 1)).bit = b.getLsbD i) ∧
    frameLevel b 9 = .high

/-- Words written out by hand decode as the spec has it. The command words, and the two frames that decode, stand in
spec/95_test_vectors.md with what they are. The two frames with a wrong end cell stand nowhere in it: that they are no
frame follows from spec/30_encoding.md R74 (cell 0 Low, cell 9 High). Reading a pattern string as a 10-bit word with
cell 0 at bit 9 is the model's reading (log 10). -/
def Obligations.WordsOfTheVectorsDecode : Prop :=
  decode (.cmd 0x000000004#34) = .ok (.bind 4) ∧ decode (.cmd 0x0000000FF#34) = .ok (.bind 255) ∧
  decode (.cmd 0x000000104#34) = .error .reservedBits ∧
  decode (.cmd 0x100002580#34) = .ok (.configure 9600) ∧ decode (.cmd 0x1FFFFFFFF#34) = .ok (.configure 4294967295) ∧
  decode (.cmd 0x200000001#34) = .ok (.write 1) ∧ decode (.cmd 0x200000101#34) = .error .reservedBits ∧
  decode (.cmd 0x300000000#34) = .ok .read ∧ decode (.cmd 0x300000001#34) = .error .reservedBits ∧
  decode (.wire 0b0101001011#10) = .ok (.frame 0xA5) ∧ decode (.wire 0b0100000001#10) = .ok (.frame 0x01) ∧
  decode (.wire 0b1100000001#10) = .error .noStartCell ∧ decode (.wire 0b0100000000#10) = .error .noStopCell

/-! ### The reset input -/

/-- spec/70_reset_and_hazards.md R190: while `rst` is asserted, and at the instant it is released, the block is as after
reset, whatever state the step began in and whatever it did; and nothing is accepted meanwhile: what stands at the
port and the caller's program stay (that they stay is the model's choice, log 9, log 23). -/
def Obligations.BlockIsAsAfterResetWhileAsserted : Prop :=
  ∀ s t : State, step s = .next t →
    (t.rst.isSome = true ∨ s.rst.isSome = true → t.AsAfterReset) ∧
    (s.rst.isSome = true → t.cmdValid = s.cmdValid ∧ t.cmd = s.cmd ∧ t.program = s.program)

/-- spec/70_reset_and_hazards.md R190: an asserted `rst` holds the block, microsecond by microsecond, until it is
released, and no longer; then the block is as after reset, at the microsecond of the release (or now, if that is
past), with nothing accepted and no later assertion taken. (A microsecond a step, and what stays of the caller's
inputs, are the model's choice, log 9, log 23.) -/
def Obligations.AssertedResetLastsUntilItsRelease : Prop :=
  ∀ (s : State) (release : Time), s.rst = some release →
    ∃ (k : Nat) (t : State), k ≤ release.toNat - s.now.toNat + 1 ∧ steps k s = .next t ∧ t.AsAfterReset ∧
      t.rst = none ∧ t.rstAt = s.rstAt ∧ t.now.toNat = max s.now.toNat release.toNat ∧
      t.cmdValid = s.cmdValid ∧ t.cmd = s.cmd ∧ t.program = s.program ∧ t.plat = s.plat
end

