-- ==== Sys2Proof/Laws/Encoding.lean ====
section
/-! SUPPORT. The fields of a command word, taken apart and put together (spec/30_encoding.md R71, R72). -/

namespace Sys2Proof

@[simp] theorem cmdOp_cmdWord (op : BitVec 2) (arg : Word32) : cmdOp (cmdWord op arg) = op := by
  unfold cmdOp cmdWord
  apply BitVec.eq_of_toNat_eq
  rw [BitVec.extractLsb'_toNat, BitVec.toNat_append, ← Nat.shiftLeft_add_eq_or_of_lt arg.isLt, Nat.shiftLeft_eq,
    Nat.shiftRight_eq_div_pow]
  have := op.isLt
  have := arg.isLt
  omega

@[simp] theorem cmdArg_cmdWord (op : BitVec 2) (arg : Word32) : cmdArg (cmdWord op arg) = arg := by
  unfold cmdArg cmdWord
  apply BitVec.eq_of_toNat_eq
  rw [BitVec.extractLsb'_toNat, BitVec.toNat_append, ← Nat.shiftLeft_add_eq_or_of_lt arg.isLt, Nat.shiftLeft_eq,
    Nat.shiftRight_eq_div_pow]
  have := op.isLt
  have := arg.isLt
  omega

/-- A command word is its two fields. -/
theorem cmdWord_fields (w : CmdWord) : cmdWord (cmdOp w) (cmdArg w) = w := by
  unfold cmdOp cmdArg cmdWord
  apply BitVec.eq_of_toNat_eq
  rw [BitVec.toNat_append, ← Nat.shiftLeft_add_eq_or_of_lt (BitVec.isLt _), Nat.shiftLeft_eq,
    BitVec.extractLsb'_toNat, BitVec.extractLsb'_toNat, Nat.shiftRight_eq_div_pow, Nat.shiftRight_eq_div_pow]
  have := w.isLt
  omega

@[simp] theorem argByte_setWidth (b : Byte) : argByte (b.setWidth 32) = b := by
  unfold argByte
  apply BitVec.eq_of_toNat_eq
  rw [BitVec.extractLsb'_toNat, BitVec.toNat_setWidth, Nat.shiftRight_eq_div_pow]
  have := b.isLt
  omega

@[simp] theorem argReserved_setWidth (b : Byte) : argReserved (b.setWidth 32) = 0 := by
  unfold argReserved
  apply BitVec.eq_of_toNat_eq
  rw [BitVec.extractLsb'_toNat, BitVec.toNat_setWidth, Nat.shiftRight_eq_div_pow]
  have := b.isLt
  simp
  omega

/-- An operand whose reserved bits are zero is its low byte. -/
theorem setWidth_argByte {arg : Word32} (h : argReserved arg = 0) : (argByte arg).setWidth 32 = arg := by
  have h' := congrArg BitVec.toNat h
  unfold argReserved at h'
  unfold argByte
  apply BitVec.eq_of_toNat_eq
  rw [BitVec.extractLsb'_toNat, Nat.shiftRight_eq_div_pow] at h'
  rw [BitVec.toNat_setWidth, BitVec.extractLsb'_toNat, Nat.shiftRight_eq_div_pow]
  have := arg.isLt
  simp at h'
  omega

end Sys2Proof
end

