-- ==== Sys2Proof/Laws/State.lean ====
section
/-! SUPPORT. One lemma per field per update of the state, true by unfolding. -/

namespace Sys2Proof.Machine

/-! ### `respond` -/

@[simp] theorem State.respond_phase (s : State) (data : Byte) (err : RspErr) : (s.respond data err).phase = s.phase := rfl
@[simp] theorem State.respond_pin (s : State) (data : Byte) (err : RspErr) : (s.respond data err).pin = s.pin := rfl
@[simp] theorem State.respond_bound (s : State) (data : Byte) (err : RspErr) : (s.respond data err).bound = s.bound := rfl
@[simp] theorem State.respond_bp (s : State) (data : Byte) (err : RspErr) : (s.respond data err).bp = s.bp := rfl
@[simp] theorem State.respond_configured (s : State) (data : Byte) (err : RspErr) : (s.respond data err).configured = s.configured := rfl
@[simp] theorem State.respond_dir (s : State) (data : Byte) (err : RspErr) : (s.respond data err).dir = s.dir := rfl
@[simp] theorem State.respond_olat (s : State) (data : Byte) (err : RspErr) : (s.respond data err).olat = s.olat := rfl
@[simp] theorem State.respond_im (s : State) (data : Byte) (err : RspErr) : (s.respond data err).im = s.im := rfl
@[simp] theorem State.respond_now (s : State) (data : Byte) (err : RspErr) : (s.respond data err).now = s.now := rfl
@[simp] theorem State.respond_idx (s : State) (data : Byte) (err : RspErr) : (s.respond data err).idx = s.idx := rfl
@[simp] theorem State.respond_txb (s : State) (data : Byte) (err : RspErr) : (s.respond data err).txb = s.txb := rfl
@[simp] theorem State.respond_rxb (s : State) (data : Byte) (err : RspErr) : (s.respond data err).rxb = s.rxb := rfl
@[simp] theorem State.respond_t0 (s : State) (data : Byte) (err : RspErr) : (s.respond data err).t0 = s.t0 := rfl
@[simp] theorem State.respond_cfgf (s : State) (data : Byte) (err : RspErr) : (s.respond data err).cfgf = s.cfgf := rfl
@[simp] theorem State.respond_timedOut (s : State) (data : Byte) (err : RspErr) : (s.respond data err).timedOut = s.timedOut := rfl
@[simp] theorem State.respond_rspValid (s : State) (data : Byte) (err : RspErr) : (s.respond data err).rspValid = true := rfl
@[simp] theorem State.respond_rspData (s : State) (data : Byte) (err : RspErr) : (s.respond data err).rspData = data := rfl
@[simp] theorem State.respond_rspErr (s : State) (data : Byte) (err : RspErr) : (s.respond data err).rspErr = err := rfl
@[simp] theorem State.respond_cmdValid (s : State) (data : Byte) (err : RspErr) : (s.respond data err).cmdValid = s.cmdValid := rfl
@[simp] theorem State.respond_cmd (s : State) (data : Byte) (err : RspErr) : (s.respond data err).cmd = s.cmd := rfl
@[simp] theorem State.respond_rst (s : State) (data : Byte) (err : RspErr) : (s.respond data err).rst = s.rst := rfl
@[simp] theorem State.respond_rstAt (s : State) (data : Byte) (err : RspErr) : (s.respond data err).rstAt = s.rstAt := rfl
@[simp] theorem State.respond_program (s : State) (data : Byte) (err : RspErr) : (s.respond data err).program = s.program := rfl
@[simp] theorem State.respond_plat (s : State) (data : Byte) (err : RspErr) : (s.respond data err).plat = s.plat := rfl
@[simp] theorem State.respond_draws (s : State) (data : Byte) (err : RspErr) : (s.respond data err).draws = s.draws := rfl
@[simp] theorem State.respond_wholeFrame (s : State) (data : Byte) (err : RspErr) : (s.respond data err).wholeFrame = s.wholeFrame := rfl
@[simp] theorem State.respond_trace (s : State) (data : Byte) (err : RspErr) : (s.respond data err).trace = s.trace := rfl

/-! ### `endPulse` -/

@[simp] theorem State.endPulse_phase (s : State) : (s.endPulse).phase = s.phase := rfl
@[simp] theorem State.endPulse_pin (s : State) : (s.endPulse).pin = s.pin := rfl
@[simp] theorem State.endPulse_bound (s : State) : (s.endPulse).bound = s.bound := rfl
@[simp] theorem State.endPulse_bp (s : State) : (s.endPulse).bp = s.bp := rfl
@[simp] theorem State.endPulse_configured (s : State) : (s.endPulse).configured = s.configured := rfl
@[simp] theorem State.endPulse_dir (s : State) : (s.endPulse).dir = s.dir := rfl
@[simp] theorem State.endPulse_olat (s : State) : (s.endPulse).olat = s.olat := rfl
@[simp] theorem State.endPulse_im (s : State) : (s.endPulse).im = s.im := rfl
@[simp] theorem State.endPulse_now (s : State) : (s.endPulse).now = s.now := rfl
@[simp] theorem State.endPulse_idx (s : State) : (s.endPulse).idx = s.idx := rfl
@[simp] theorem State.endPulse_txb (s : State) : (s.endPulse).txb = s.txb := rfl
@[simp] theorem State.endPulse_rxb (s : State) : (s.endPulse).rxb = s.rxb := rfl
@[simp] theorem State.endPulse_t0 (s : State) : (s.endPulse).t0 = s.t0 := rfl
@[simp] theorem State.endPulse_cfgf (s : State) : (s.endPulse).cfgf = s.cfgf := rfl
@[simp] theorem State.endPulse_timedOut (s : State) : (s.endPulse).timedOut = s.timedOut := rfl
@[simp] theorem State.endPulse_rspValid (s : State) : (s.endPulse).rspValid = false := rfl
@[simp] theorem State.endPulse_rspData (s : State) : (s.endPulse).rspData = s.rspData := rfl
@[simp] theorem State.endPulse_rspErr (s : State) : (s.endPulse).rspErr = s.rspErr := rfl
@[simp] theorem State.endPulse_cmdValid (s : State) : (s.endPulse).cmdValid = s.cmdValid := rfl
@[simp] theorem State.endPulse_cmd (s : State) : (s.endPulse).cmd = s.cmd := rfl
@[simp] theorem State.endPulse_rst (s : State) : (s.endPulse).rst = s.rst := rfl
@[simp] theorem State.endPulse_rstAt (s : State) : (s.endPulse).rstAt = s.rstAt := rfl
@[simp] theorem State.endPulse_program (s : State) : (s.endPulse).program = s.program := rfl
@[simp] theorem State.endPulse_plat (s : State) : (s.endPulse).plat = s.plat := rfl
@[simp] theorem State.endPulse_draws (s : State) : (s.endPulse).draws = s.draws := rfl
@[simp] theorem State.endPulse_wholeFrame (s : State) : (s.endPulse).wholeFrame = s.wholeFrame := rfl
@[simp] theorem State.endPulse_trace (s : State) : (s.endPulse).trace = s.trace := rfl

/-! ### `note` -/

@[simp] theorem State.note_phase (s : State) (op : PinOp) : (s.note op).phase = s.phase := rfl
@[simp] theorem State.note_pin (s : State) (op : PinOp) : (s.note op).pin = s.pin := rfl
@[simp] theorem State.note_bound (s : State) (op : PinOp) : (s.note op).bound = s.bound := rfl
@[simp] theorem State.note_bp (s : State) (op : PinOp) : (s.note op).bp = s.bp := rfl
@[simp] theorem State.note_configured (s : State) (op : PinOp) : (s.note op).configured = s.configured := rfl
@[simp] theorem State.note_dir (s : State) (op : PinOp) : (s.note op).dir = s.dir := rfl
@[simp] theorem State.note_olat (s : State) (op : PinOp) : (s.note op).olat = s.olat := rfl
@[simp] theorem State.note_im (s : State) (op : PinOp) : (s.note op).im = s.im := rfl
@[simp] theorem State.note_now (s : State) (op : PinOp) : (s.note op).now = s.now := rfl
@[simp] theorem State.note_idx (s : State) (op : PinOp) : (s.note op).idx = s.idx := rfl
@[simp] theorem State.note_txb (s : State) (op : PinOp) : (s.note op).txb = s.txb := rfl
@[simp] theorem State.note_rxb (s : State) (op : PinOp) : (s.note op).rxb = s.rxb := rfl
@[simp] theorem State.note_t0 (s : State) (op : PinOp) : (s.note op).t0 = s.t0 := rfl
@[simp] theorem State.note_cfgf (s : State) (op : PinOp) : (s.note op).cfgf = s.cfgf := rfl
@[simp] theorem State.note_timedOut (s : State) (op : PinOp) : (s.note op).timedOut = s.timedOut := rfl
@[simp] theorem State.note_rspValid (s : State) (op : PinOp) : (s.note op).rspValid = s.rspValid := rfl
@[simp] theorem State.note_rspData (s : State) (op : PinOp) : (s.note op).rspData = s.rspData := rfl
@[simp] theorem State.note_rspErr (s : State) (op : PinOp) : (s.note op).rspErr = s.rspErr := rfl
@[simp] theorem State.note_cmdValid (s : State) (op : PinOp) : (s.note op).cmdValid = s.cmdValid := rfl
@[simp] theorem State.note_cmd (s : State) (op : PinOp) : (s.note op).cmd = s.cmd := rfl
@[simp] theorem State.note_rst (s : State) (op : PinOp) : (s.note op).rst = s.rst := rfl
@[simp] theorem State.note_rstAt (s : State) (op : PinOp) : (s.note op).rstAt = s.rstAt := rfl
@[simp] theorem State.note_program (s : State) (op : PinOp) : (s.note op).program = s.program := rfl
@[simp] theorem State.note_plat (s : State) (op : PinOp) : (s.note op).plat = s.plat := rfl
@[simp] theorem State.note_draws (s : State) (op : PinOp) : (s.note op).draws = s.draws := rfl
@[simp] theorem State.note_wholeFrame (s : State) (op : PinOp) : (s.note op).wholeFrame = s.wholeFrame := rfl
@[simp] theorem State.note_trace (s : State) (op : PinOp) : (s.note op).trace = ⟨s.now, op⟩ :: s.trace := rfl

/-! ### `setDirection` -/

@[simp] theorem State.setDirection_phase (s : State) (d : Dir) : (s.setDirection d).phase = s.phase := rfl
@[simp] theorem State.setDirection_pin (s : State) (d : Dir) : (s.setDirection d).pin = s.pin := rfl
@[simp] theorem State.setDirection_bound (s : State) (d : Dir) : (s.setDirection d).bound = s.bound := rfl
@[simp] theorem State.setDirection_bp (s : State) (d : Dir) : (s.setDirection d).bp = s.bp := rfl
@[simp] theorem State.setDirection_configured (s : State) (d : Dir) : (s.setDirection d).configured = s.configured := rfl
@[simp] theorem State.setDirection_dir (s : State) (d : Dir) : (s.setDirection d).dir = d := rfl
@[simp] theorem State.setDirection_olat (s : State) (d : Dir) : (s.setDirection d).olat = s.olat := rfl
@[simp] theorem State.setDirection_im (s : State) (d : Dir) : (s.setDirection d).im = s.im := rfl
@[simp] theorem State.setDirection_now (s : State) (d : Dir) : (s.setDirection d).now = s.now := rfl
@[simp] theorem State.setDirection_idx (s : State) (d : Dir) : (s.setDirection d).idx = s.idx := rfl
@[simp] theorem State.setDirection_txb (s : State) (d : Dir) : (s.setDirection d).txb = s.txb := rfl
@[simp] theorem State.setDirection_rxb (s : State) (d : Dir) : (s.setDirection d).rxb = s.rxb := rfl
@[simp] theorem State.setDirection_t0 (s : State) (d : Dir) : (s.setDirection d).t0 = s.t0 := rfl
@[simp] theorem State.setDirection_cfgf (s : State) (d : Dir) : (s.setDirection d).cfgf = s.cfgf := rfl
@[simp] theorem State.setDirection_timedOut (s : State) (d : Dir) : (s.setDirection d).timedOut = s.timedOut := rfl
@[simp] theorem State.setDirection_rspValid (s : State) (d : Dir) : (s.setDirection d).rspValid = s.rspValid := rfl
@[simp] theorem State.setDirection_rspData (s : State) (d : Dir) : (s.setDirection d).rspData = s.rspData := rfl
@[simp] theorem State.setDirection_rspErr (s : State) (d : Dir) : (s.setDirection d).rspErr = s.rspErr := rfl
@[simp] theorem State.setDirection_cmdValid (s : State) (d : Dir) : (s.setDirection d).cmdValid = s.cmdValid := rfl
@[simp] theorem State.setDirection_cmd (s : State) (d : Dir) : (s.setDirection d).cmd = s.cmd := rfl
@[simp] theorem State.setDirection_rst (s : State) (d : Dir) : (s.setDirection d).rst = s.rst := rfl
@[simp] theorem State.setDirection_rstAt (s : State) (d : Dir) : (s.setDirection d).rstAt = s.rstAt := rfl
@[simp] theorem State.setDirection_program (s : State) (d : Dir) : (s.setDirection d).program = s.program := rfl
@[simp] theorem State.setDirection_plat (s : State) (d : Dir) : (s.setDirection d).plat = s.plat := rfl
@[simp] theorem State.setDirection_draws (s : State) (d : Dir) : (s.setDirection d).draws = s.draws := rfl
@[simp] theorem State.setDirection_wholeFrame (s : State) (d : Dir) : (s.setDirection d).wholeFrame = s.wholeFrame := rfl
@[simp] theorem State.setDirection_trace (s : State) (d : Dir) : (s.setDirection d).trace = ⟨s.now, .setDirection d⟩ :: s.trace := rfl

/-! ### `setLevel` -/

@[simp] theorem State.setLevel_phase (s : State) (l : Level) : (s.setLevel l).phase = s.phase := rfl
@[simp] theorem State.setLevel_pin (s : State) (l : Level) : (s.setLevel l).pin = s.pin := rfl
@[simp] theorem State.setLevel_bound (s : State) (l : Level) : (s.setLevel l).bound = s.bound := rfl
@[simp] theorem State.setLevel_bp (s : State) (l : Level) : (s.setLevel l).bp = s.bp := rfl
@[simp] theorem State.setLevel_configured (s : State) (l : Level) : (s.setLevel l).configured = s.configured := rfl
@[simp] theorem State.setLevel_dir (s : State) (l : Level) : (s.setLevel l).dir = s.dir := rfl
@[simp] theorem State.setLevel_olat (s : State) (l : Level) : (s.setLevel l).olat = l := rfl
@[simp] theorem State.setLevel_im (s : State) (l : Level) : (s.setLevel l).im = s.im := rfl
@[simp] theorem State.setLevel_now (s : State) (l : Level) : (s.setLevel l).now = s.now := rfl
@[simp] theorem State.setLevel_idx (s : State) (l : Level) : (s.setLevel l).idx = s.idx := rfl
@[simp] theorem State.setLevel_txb (s : State) (l : Level) : (s.setLevel l).txb = s.txb := rfl
@[simp] theorem State.setLevel_rxb (s : State) (l : Level) : (s.setLevel l).rxb = s.rxb := rfl
@[simp] theorem State.setLevel_t0 (s : State) (l : Level) : (s.setLevel l).t0 = s.t0 := rfl
@[simp] theorem State.setLevel_cfgf (s : State) (l : Level) : (s.setLevel l).cfgf = s.cfgf := rfl
@[simp] theorem State.setLevel_timedOut (s : State) (l : Level) : (s.setLevel l).timedOut = s.timedOut := rfl
@[simp] theorem State.setLevel_rspValid (s : State) (l : Level) : (s.setLevel l).rspValid = s.rspValid := rfl
@[simp] theorem State.setLevel_rspData (s : State) (l : Level) : (s.setLevel l).rspData = s.rspData := rfl
@[simp] theorem State.setLevel_rspErr (s : State) (l : Level) : (s.setLevel l).rspErr = s.rspErr := rfl
@[simp] theorem State.setLevel_cmdValid (s : State) (l : Level) : (s.setLevel l).cmdValid = s.cmdValid := rfl
@[simp] theorem State.setLevel_cmd (s : State) (l : Level) : (s.setLevel l).cmd = s.cmd := rfl
@[simp] theorem State.setLevel_rst (s : State) (l : Level) : (s.setLevel l).rst = s.rst := rfl
@[simp] theorem State.setLevel_rstAt (s : State) (l : Level) : (s.setLevel l).rstAt = s.rstAt := rfl
@[simp] theorem State.setLevel_program (s : State) (l : Level) : (s.setLevel l).program = s.program := rfl
@[simp] theorem State.setLevel_plat (s : State) (l : Level) : (s.setLevel l).plat = s.plat := rfl
@[simp] theorem State.setLevel_draws (s : State) (l : Level) : (s.setLevel l).draws = s.draws := rfl
@[simp] theorem State.setLevel_wholeFrame (s : State) (l : Level) : (s.setLevel l).wholeFrame = s.wholeFrame := rfl
@[simp] theorem State.setLevel_trace (s : State) (l : Level) : (s.setLevel l).trace = ⟨s.now, .setLevel l⟩ :: s.trace := rfl

/-! ### `sampled` -/

@[simp] theorem State.sampled_phase (s : State) : (s.sampled).phase = s.phase := rfl
@[simp] theorem State.sampled_pin (s : State) : (s.sampled).pin = s.pin := rfl
@[simp] theorem State.sampled_bound (s : State) : (s.sampled).bound = s.bound := rfl
@[simp] theorem State.sampled_bp (s : State) : (s.sampled).bp = s.bp := rfl
@[simp] theorem State.sampled_configured (s : State) : (s.sampled).configured = s.configured := rfl
@[simp] theorem State.sampled_dir (s : State) : (s.sampled).dir = s.dir := rfl
@[simp] theorem State.sampled_olat (s : State) : (s.sampled).olat = s.olat := rfl
@[simp] theorem State.sampled_im (s : State) : (s.sampled).im = s.im := rfl
@[simp] theorem State.sampled_now (s : State) : (s.sampled).now = s.now := rfl
@[simp] theorem State.sampled_idx (s : State) : (s.sampled).idx = s.idx := rfl
@[simp] theorem State.sampled_txb (s : State) : (s.sampled).txb = s.txb := rfl
@[simp] theorem State.sampled_rxb (s : State) : (s.sampled).rxb = s.rxb := rfl
@[simp] theorem State.sampled_t0 (s : State) : (s.sampled).t0 = s.t0 := rfl
@[simp] theorem State.sampled_cfgf (s : State) : (s.sampled).cfgf = s.cfgf := rfl
@[simp] theorem State.sampled_timedOut (s : State) : (s.sampled).timedOut = s.timedOut := rfl
@[simp] theorem State.sampled_rspValid (s : State) : (s.sampled).rspValid = s.rspValid := rfl
@[simp] theorem State.sampled_rspData (s : State) : (s.sampled).rspData = s.rspData := rfl
@[simp] theorem State.sampled_rspErr (s : State) : (s.sampled).rspErr = s.rspErr := rfl
@[simp] theorem State.sampled_cmdValid (s : State) : (s.sampled).cmdValid = s.cmdValid := rfl
@[simp] theorem State.sampled_cmd (s : State) : (s.sampled).cmd = s.cmd := rfl
@[simp] theorem State.sampled_rst (s : State) : (s.sampled).rst = s.rst := rfl
@[simp] theorem State.sampled_rstAt (s : State) : (s.sampled).rstAt = s.rstAt := rfl
@[simp] theorem State.sampled_program (s : State) : (s.sampled).program = s.program := rfl
@[simp] theorem State.sampled_plat (s : State) : (s.sampled).plat = s.plat := rfl
@[simp] theorem State.sampled_draws (s : State) : (s.sampled).draws = s.draws := rfl
@[simp] theorem State.sampled_wholeFrame (s : State) : (s.sampled).wholeFrame = s.wholeFrame := rfl
@[simp] theorem State.sampled_trace (s : State) : (s.sampled).trace = ⟨s.now, .sample s.readLevel⟩ :: s.trace := rfl

/-! ### `mask` -/

@[simp] theorem State.mask_phase (s : State) : (s.mask).phase = s.phase := rfl
@[simp] theorem State.mask_pin (s : State) : (s.mask).pin = s.pin := rfl
@[simp] theorem State.mask_bound (s : State) : (s.mask).bound = s.bound := rfl
@[simp] theorem State.mask_bp (s : State) : (s.mask).bp = s.bp := rfl
@[simp] theorem State.mask_configured (s : State) : (s.mask).configured = s.configured := rfl
@[simp] theorem State.mask_dir (s : State) : (s.mask).dir = s.dir := rfl
@[simp] theorem State.mask_olat (s : State) : (s.mask).olat = s.olat := rfl
@[simp] theorem State.mask_im (s : State) : (s.mask).im = true := rfl
@[simp] theorem State.mask_now (s : State) : (s.mask).now = s.now := rfl
@[simp] theorem State.mask_idx (s : State) : (s.mask).idx = s.idx := rfl
@[simp] theorem State.mask_txb (s : State) : (s.mask).txb = s.txb := rfl
@[simp] theorem State.mask_rxb (s : State) : (s.mask).rxb = s.rxb := rfl
@[simp] theorem State.mask_t0 (s : State) : (s.mask).t0 = s.t0 := rfl
@[simp] theorem State.mask_cfgf (s : State) : (s.mask).cfgf = s.cfgf := rfl
@[simp] theorem State.mask_timedOut (s : State) : (s.mask).timedOut = s.timedOut := rfl
@[simp] theorem State.mask_rspValid (s : State) : (s.mask).rspValid = s.rspValid := rfl
@[simp] theorem State.mask_rspData (s : State) : (s.mask).rspData = s.rspData := rfl
@[simp] theorem State.mask_rspErr (s : State) : (s.mask).rspErr = s.rspErr := rfl
@[simp] theorem State.mask_cmdValid (s : State) : (s.mask).cmdValid = s.cmdValid := rfl
@[simp] theorem State.mask_cmd (s : State) : (s.mask).cmd = s.cmd := rfl
@[simp] theorem State.mask_rst (s : State) : (s.mask).rst = s.rst := rfl
@[simp] theorem State.mask_rstAt (s : State) : (s.mask).rstAt = s.rstAt := rfl
@[simp] theorem State.mask_program (s : State) : (s.mask).program = s.program := rfl
@[simp] theorem State.mask_plat (s : State) : (s.mask).plat = s.plat := rfl
@[simp] theorem State.mask_draws (s : State) : (s.mask).draws = s.draws := rfl
@[simp] theorem State.mask_wholeFrame (s : State) : (s.mask).wholeFrame = s.wholeFrame := rfl
@[simp] theorem State.mask_trace (s : State) : (s.mask).trace = ⟨s.now, .mask⟩ :: s.trace := rfl

/-! ### `unmask` -/

@[simp] theorem State.unmask_phase (s : State) : (s.unmask).phase = s.phase := rfl
@[simp] theorem State.unmask_pin (s : State) : (s.unmask).pin = s.pin := rfl
@[simp] theorem State.unmask_bound (s : State) : (s.unmask).bound = s.bound := rfl
@[simp] theorem State.unmask_bp (s : State) : (s.unmask).bp = s.bp := rfl
@[simp] theorem State.unmask_configured (s : State) : (s.unmask).configured = s.configured := rfl
@[simp] theorem State.unmask_dir (s : State) : (s.unmask).dir = s.dir := rfl
@[simp] theorem State.unmask_olat (s : State) : (s.unmask).olat = s.olat := rfl
@[simp] theorem State.unmask_im (s : State) : (s.unmask).im = false := rfl
@[simp] theorem State.unmask_now (s : State) : (s.unmask).now = s.now := rfl
@[simp] theorem State.unmask_idx (s : State) : (s.unmask).idx = s.idx := rfl
@[simp] theorem State.unmask_txb (s : State) : (s.unmask).txb = s.txb := rfl
@[simp] theorem State.unmask_rxb (s : State) : (s.unmask).rxb = s.rxb := rfl
@[simp] theorem State.unmask_t0 (s : State) : (s.unmask).t0 = s.t0 := rfl
@[simp] theorem State.unmask_cfgf (s : State) : (s.unmask).cfgf = s.cfgf := rfl
@[simp] theorem State.unmask_timedOut (s : State) : (s.unmask).timedOut = s.timedOut := rfl
@[simp] theorem State.unmask_rspValid (s : State) : (s.unmask).rspValid = s.rspValid := rfl
@[simp] theorem State.unmask_rspData (s : State) : (s.unmask).rspData = s.rspData := rfl
@[simp] theorem State.unmask_rspErr (s : State) : (s.unmask).rspErr = s.rspErr := rfl
@[simp] theorem State.unmask_cmdValid (s : State) : (s.unmask).cmdValid = s.cmdValid := rfl
@[simp] theorem State.unmask_cmd (s : State) : (s.unmask).cmd = s.cmd := rfl
@[simp] theorem State.unmask_rst (s : State) : (s.unmask).rst = s.rst := rfl
@[simp] theorem State.unmask_rstAt (s : State) : (s.unmask).rstAt = s.rstAt := rfl
@[simp] theorem State.unmask_program (s : State) : (s.unmask).program = s.program := rfl
@[simp] theorem State.unmask_plat (s : State) : (s.unmask).plat = s.plat := rfl
@[simp] theorem State.unmask_draws (s : State) : (s.unmask).draws = s.draws := rfl
@[simp] theorem State.unmask_wholeFrame (s : State) : (s.unmask).wholeFrame = s.wholeFrame := rfl
@[simp] theorem State.unmask_trace (s : State) : (s.unmask).trace = ⟨s.now, .unmask⟩ :: s.trace := rfl

/-! ### `resetBlock` -/

@[simp] theorem State.resetBlock_phase (s : State) : (s.resetBlock).phase = .unbound := rfl
@[simp] theorem State.resetBlock_pin (s : State) : (s.resetBlock).pin = 0 := rfl
@[simp] theorem State.resetBlock_bound (s : State) : (s.resetBlock).bound = false := rfl
@[simp] theorem State.resetBlock_bp (s : State) : (s.resetBlock).bp = 0 := rfl
@[simp] theorem State.resetBlock_configured (s : State) : (s.resetBlock).configured = false := rfl
@[simp] theorem State.resetBlock_dir (s : State) : (s.resetBlock).dir = .input := rfl
@[simp] theorem State.resetBlock_olat (s : State) : (s.resetBlock).olat = .low := rfl
@[simp] theorem State.resetBlock_im (s : State) : (s.resetBlock).im = false := rfl
@[simp] theorem State.resetBlock_now (s : State) : (s.resetBlock).now = s.now := rfl
@[simp] theorem State.resetBlock_idx (s : State) : (s.resetBlock).idx = 0 := rfl
@[simp] theorem State.resetBlock_txb (s : State) : (s.resetBlock).txb = 0 := rfl
@[simp] theorem State.resetBlock_rxb (s : State) : (s.resetBlock).rxb = 0 := rfl
@[simp] theorem State.resetBlock_t0 (s : State) : (s.resetBlock).t0 = 0 := rfl
@[simp] theorem State.resetBlock_cfgf (s : State) : (s.resetBlock).cfgf = false := rfl
@[simp] theorem State.resetBlock_timedOut (s : State) : (s.resetBlock).timedOut = false := rfl
@[simp] theorem State.resetBlock_rspValid (s : State) : (s.resetBlock).rspValid = false := rfl
@[simp] theorem State.resetBlock_rspData (s : State) : (s.resetBlock).rspData = 0 := rfl
@[simp] theorem State.resetBlock_rspErr (s : State) : (s.resetBlock).rspErr = .ok := rfl
@[simp] theorem State.resetBlock_cmdValid (s : State) : (s.resetBlock).cmdValid = s.cmdValid := rfl
@[simp] theorem State.resetBlock_cmd (s : State) : (s.resetBlock).cmd = s.cmd := rfl
@[simp] theorem State.resetBlock_rst (s : State) : (s.resetBlock).rst = s.rst := rfl
@[simp] theorem State.resetBlock_rstAt (s : State) : (s.resetBlock).rstAt = s.rstAt := rfl
@[simp] theorem State.resetBlock_program (s : State) : (s.resetBlock).program = s.program := rfl
@[simp] theorem State.resetBlock_plat (s : State) : (s.resetBlock).plat = s.plat := rfl
@[simp] theorem State.resetBlock_draws (s : State) : (s.resetBlock).draws = s.draws := rfl
@[simp] theorem State.resetBlock_wholeFrame (s : State) : (s.resetBlock).wholeFrame = s.wholeFrame := rfl
@[simp] theorem State.resetBlock_trace (s : State) : (s.resetBlock).trace = s.trace := rfl

/-! ### `takeReset` -/

@[simp] theorem State.takeReset_phase (s : State) : (s.takeReset).phase = .unbound := rfl
@[simp] theorem State.takeReset_pin (s : State) : (s.takeReset).pin = 0 := rfl
@[simp] theorem State.takeReset_bound (s : State) : (s.takeReset).bound = false := rfl
@[simp] theorem State.takeReset_bp (s : State) : (s.takeReset).bp = 0 := rfl
@[simp] theorem State.takeReset_configured (s : State) : (s.takeReset).configured = false := rfl
@[simp] theorem State.takeReset_dir (s : State) : (s.takeReset).dir = .input := rfl
@[simp] theorem State.takeReset_olat (s : State) : (s.takeReset).olat = .low := rfl
@[simp] theorem State.takeReset_im (s : State) : (s.takeReset).im = false := rfl
@[simp] theorem State.takeReset_now (s : State) : (s.takeReset).now = s.now := rfl
@[simp] theorem State.takeReset_idx (s : State) : (s.takeReset).idx = 0 := rfl
@[simp] theorem State.takeReset_txb (s : State) : (s.takeReset).txb = 0 := rfl
@[simp] theorem State.takeReset_rxb (s : State) : (s.takeReset).rxb = 0 := rfl
@[simp] theorem State.takeReset_t0 (s : State) : (s.takeReset).t0 = 0 := rfl
@[simp] theorem State.takeReset_cfgf (s : State) : (s.takeReset).cfgf = false := rfl
@[simp] theorem State.takeReset_timedOut (s : State) : (s.takeReset).timedOut = false := rfl
@[simp] theorem State.takeReset_rspValid (s : State) : (s.takeReset).rspValid = false := rfl
@[simp] theorem State.takeReset_rspData (s : State) : (s.takeReset).rspData = 0 := rfl
@[simp] theorem State.takeReset_rspErr (s : State) : (s.takeReset).rspErr = .ok := rfl
@[simp] theorem State.takeReset_cmdValid (s : State) : (s.takeReset).cmdValid = s.cmdValid := rfl
@[simp] theorem State.takeReset_cmd (s : State) : (s.takeReset).cmd = s.cmd := rfl
@[simp] theorem State.takeReset_rst (s : State) : (s.takeReset).rst = s.rstAt.head?.map ResetSpan.release := rfl
@[simp] theorem State.takeReset_rstAt (s : State) : (s.takeReset).rstAt = s.rstAt.tail := rfl
@[simp] theorem State.takeReset_program (s : State) : (s.takeReset).program = s.program := rfl
@[simp] theorem State.takeReset_plat (s : State) : (s.takeReset).plat = s.plat := rfl
@[simp] theorem State.takeReset_draws (s : State) : (s.takeReset).draws = s.draws := rfl
@[simp] theorem State.takeReset_wholeFrame (s : State) : (s.takeReset).wholeFrame = s.wholeFrame := rfl
@[simp] theorem State.takeReset_trace (s : State) : (s.takeReset).trace = ⟨s.now, .reset⟩ :: s.trace := rfl

/-! ### `configurationFailure` -/

@[simp] theorem State.configurationFailure_phase (s : State) : (s.configurationFailure).phase = .faulted := rfl
@[simp] theorem State.configurationFailure_pin (s : State) : (s.configurationFailure).pin = s.pin := rfl
@[simp] theorem State.configurationFailure_bound (s : State) : (s.configurationFailure).bound = s.bound := rfl
@[simp] theorem State.configurationFailure_bp (s : State) : (s.configurationFailure).bp = s.bp := rfl
@[simp] theorem State.configurationFailure_configured (s : State) : (s.configurationFailure).configured = s.configured := rfl
@[simp] theorem State.configurationFailure_dir (s : State) : (s.configurationFailure).dir = s.dir := rfl
@[simp] theorem State.configurationFailure_olat (s : State) : (s.configurationFailure).olat = s.olat := rfl
@[simp] theorem State.configurationFailure_im (s : State) : (s.configurationFailure).im = s.im := rfl
@[simp] theorem State.configurationFailure_now (s : State) : (s.configurationFailure).now = s.now := rfl
@[simp] theorem State.configurationFailure_idx (s : State) : (s.configurationFailure).idx = s.idx := rfl
@[simp] theorem State.configurationFailure_txb (s : State) : (s.configurationFailure).txb = s.txb := rfl
@[simp] theorem State.configurationFailure_rxb (s : State) : (s.configurationFailure).rxb = s.rxb := rfl
@[simp] theorem State.configurationFailure_t0 (s : State) : (s.configurationFailure).t0 = s.t0 := rfl
@[simp] theorem State.configurationFailure_cfgf (s : State) : (s.configurationFailure).cfgf = true := rfl
@[simp] theorem State.configurationFailure_timedOut (s : State) : (s.configurationFailure).timedOut = s.timedOut := rfl
@[simp] theorem State.configurationFailure_rspValid (s : State) : (s.configurationFailure).rspValid = true := rfl
@[simp] theorem State.configurationFailure_rspData (s : State) : (s.configurationFailure).rspData = 0 := rfl
@[simp] theorem State.configurationFailure_rspErr (s : State) : (s.configurationFailure).rspErr = .eCfg := rfl
@[simp] theorem State.configurationFailure_cmdValid (s : State) : (s.configurationFailure).cmdValid = s.cmdValid := rfl
@[simp] theorem State.configurationFailure_cmd (s : State) : (s.configurationFailure).cmd = s.cmd := rfl
@[simp] theorem State.configurationFailure_rst (s : State) : (s.configurationFailure).rst = s.rst := rfl
@[simp] theorem State.configurationFailure_rstAt (s : State) : (s.configurationFailure).rstAt = s.rstAt := rfl
@[simp] theorem State.configurationFailure_program (s : State) : (s.configurationFailure).program = s.program := rfl
@[simp] theorem State.configurationFailure_plat (s : State) : (s.configurationFailure).plat = s.plat := rfl
@[simp] theorem State.configurationFailure_draws (s : State) : (s.configurationFailure).draws = s.draws := rfl
@[simp] theorem State.configurationFailure_wholeFrame (s : State) : (s.configurationFailure).wholeFrame = s.wholeFrame := rfl
@[simp] theorem State.configurationFailure_trace (s : State) : (s.configurationFailure).trace = s.trace := rfl

/-! ### `countDraw` -/

@[simp] theorem State.countDraw_phase (s : State) : (s.countDraw).phase = s.phase := rfl
@[simp] theorem State.countDraw_pin (s : State) : (s.countDraw).pin = s.pin := rfl
@[simp] theorem State.countDraw_bound (s : State) : (s.countDraw).bound = s.bound := rfl
@[simp] theorem State.countDraw_bp (s : State) : (s.countDraw).bp = s.bp := rfl
@[simp] theorem State.countDraw_configured (s : State) : (s.countDraw).configured = s.configured := rfl
@[simp] theorem State.countDraw_dir (s : State) : (s.countDraw).dir = s.dir := rfl
@[simp] theorem State.countDraw_olat (s : State) : (s.countDraw).olat = s.olat := rfl
@[simp] theorem State.countDraw_im (s : State) : (s.countDraw).im = s.im := rfl
@[simp] theorem State.countDraw_now (s : State) : (s.countDraw).now = s.now := rfl
@[simp] theorem State.countDraw_idx (s : State) : (s.countDraw).idx = s.idx := rfl
@[simp] theorem State.countDraw_txb (s : State) : (s.countDraw).txb = s.txb := rfl
@[simp] theorem State.countDraw_rxb (s : State) : (s.countDraw).rxb = s.rxb := rfl
@[simp] theorem State.countDraw_t0 (s : State) : (s.countDraw).t0 = s.t0 := rfl
@[simp] theorem State.countDraw_cfgf (s : State) : (s.countDraw).cfgf = s.cfgf := rfl
@[simp] theorem State.countDraw_timedOut (s : State) : (s.countDraw).timedOut = s.timedOut := rfl
@[simp] theorem State.countDraw_rspValid (s : State) : (s.countDraw).rspValid = s.rspValid := rfl
@[simp] theorem State.countDraw_rspData (s : State) : (s.countDraw).rspData = s.rspData := rfl
@[simp] theorem State.countDraw_rspErr (s : State) : (s.countDraw).rspErr = s.rspErr := rfl
@[simp] theorem State.countDraw_cmdValid (s : State) : (s.countDraw).cmdValid = s.cmdValid := rfl
@[simp] theorem State.countDraw_cmd (s : State) : (s.countDraw).cmd = s.cmd := rfl
@[simp] theorem State.countDraw_rst (s : State) : (s.countDraw).rst = s.rst := rfl
@[simp] theorem State.countDraw_rstAt (s : State) : (s.countDraw).rstAt = s.rstAt := rfl
@[simp] theorem State.countDraw_program (s : State) : (s.countDraw).program = s.program := rfl
@[simp] theorem State.countDraw_plat (s : State) : (s.countDraw).plat = s.plat := rfl
@[simp] theorem State.countDraw_draws (s : State) : (s.countDraw).draws = s.draws + 1 := rfl
@[simp] theorem State.countDraw_wholeFrame (s : State) : (s.countDraw).wholeFrame = s.wholeFrame := rfl
@[simp] theorem State.countDraw_trace (s : State) : (s.countDraw).trace = s.trace := rfl

/-! ### `advance` -/

@[simp] theorem State.advance_phase (s : State) (n : Nat) : (s.advance n).phase = s.phase := rfl
@[simp] theorem State.advance_pin (s : State) (n : Nat) : (s.advance n).pin = s.pin := rfl
@[simp] theorem State.advance_bound (s : State) (n : Nat) : (s.advance n).bound = s.bound := rfl
@[simp] theorem State.advance_bp (s : State) (n : Nat) : (s.advance n).bp = s.bp := rfl
@[simp] theorem State.advance_configured (s : State) (n : Nat) : (s.advance n).configured = s.configured := rfl
@[simp] theorem State.advance_dir (s : State) (n : Nat) : (s.advance n).dir = s.dir := rfl
@[simp] theorem State.advance_olat (s : State) (n : Nat) : (s.advance n).olat = s.olat := rfl
@[simp] theorem State.advance_im (s : State) (n : Nat) : (s.advance n).im = s.im := rfl
@[simp] theorem State.advance_now (s : State) (n : Nat) : (s.advance n).now = s.now + BitVec.ofNat 64 n := rfl
@[simp] theorem State.advance_idx (s : State) (n : Nat) : (s.advance n).idx = s.idx := rfl
@[simp] theorem State.advance_txb (s : State) (n : Nat) : (s.advance n).txb = s.txb := rfl
@[simp] theorem State.advance_rxb (s : State) (n : Nat) : (s.advance n).rxb = s.rxb := rfl
@[simp] theorem State.advance_t0 (s : State) (n : Nat) : (s.advance n).t0 = s.t0 := rfl
@[simp] theorem State.advance_cfgf (s : State) (n : Nat) : (s.advance n).cfgf = s.cfgf := rfl
@[simp] theorem State.advance_timedOut (s : State) (n : Nat) : (s.advance n).timedOut = s.timedOut := rfl
@[simp] theorem State.advance_rspValid (s : State) (n : Nat) : (s.advance n).rspValid = s.rspValid := rfl
@[simp] theorem State.advance_rspData (s : State) (n : Nat) : (s.advance n).rspData = s.rspData := rfl
@[simp] theorem State.advance_rspErr (s : State) (n : Nat) : (s.advance n).rspErr = s.rspErr := rfl
@[simp] theorem State.advance_cmdValid (s : State) (n : Nat) : (s.advance n).cmdValid = s.cmdValid := rfl
@[simp] theorem State.advance_cmd (s : State) (n : Nat) : (s.advance n).cmd = s.cmd := rfl
@[simp] theorem State.advance_rst (s : State) (n : Nat) : (s.advance n).rst = s.rst := rfl
@[simp] theorem State.advance_rstAt (s : State) (n : Nat) : (s.advance n).rstAt = s.rstAt := rfl
@[simp] theorem State.advance_program (s : State) (n : Nat) : (s.advance n).program = s.program := rfl
@[simp] theorem State.advance_plat (s : State) (n : Nat) : (s.advance n).plat = s.plat := rfl
@[simp] theorem State.advance_draws (s : State) (n : Nat) : (s.advance n).draws = s.draws := rfl
@[simp] theorem State.advance_wholeFrame (s : State) (n : Nat) : (s.advance n).wholeFrame = s.wholeFrame := rfl
@[simp] theorem State.advance_trace (s : State) (n : Nat) : (s.advance n).trace = s.trace := rfl

/-! ### `enterData` -/

@[simp] theorem State.enterData_phase (s : State) (p : Phase) : (s.enterData p).phase = p := rfl
@[simp] theorem State.enterData_pin (s : State) (p : Phase) : (s.enterData p).pin = s.pin := rfl
@[simp] theorem State.enterData_bound (s : State) (p : Phase) : (s.enterData p).bound = s.bound := rfl
@[simp] theorem State.enterData_bp (s : State) (p : Phase) : (s.enterData p).bp = s.bp := rfl
@[simp] theorem State.enterData_configured (s : State) (p : Phase) : (s.enterData p).configured = s.configured := rfl
@[simp] theorem State.enterData_dir (s : State) (p : Phase) : (s.enterData p).dir = s.dir := rfl
@[simp] theorem State.enterData_olat (s : State) (p : Phase) : (s.enterData p).olat = s.olat := rfl
@[simp] theorem State.enterData_im (s : State) (p : Phase) : (s.enterData p).im = s.im := rfl
@[simp] theorem State.enterData_now (s : State) (p : Phase) : (s.enterData p).now = s.now := rfl
@[simp] theorem State.enterData_idx (s : State) (p : Phase) : (s.enterData p).idx = 0 := rfl
@[simp] theorem State.enterData_txb (s : State) (p : Phase) : (s.enterData p).txb = s.txb := rfl
@[simp] theorem State.enterData_rxb (s : State) (p : Phase) : (s.enterData p).rxb = s.rxb := rfl
@[simp] theorem State.enterData_t0 (s : State) (p : Phase) : (s.enterData p).t0 = s.t0 := rfl
@[simp] theorem State.enterData_cfgf (s : State) (p : Phase) : (s.enterData p).cfgf = s.cfgf := rfl
@[simp] theorem State.enterData_timedOut (s : State) (p : Phase) : (s.enterData p).timedOut = s.timedOut := rfl
@[simp] theorem State.enterData_rspValid (s : State) (p : Phase) : (s.enterData p).rspValid = s.rspValid := rfl
@[simp] theorem State.enterData_rspData (s : State) (p : Phase) : (s.enterData p).rspData = s.rspData := rfl
@[simp] theorem State.enterData_rspErr (s : State) (p : Phase) : (s.enterData p).rspErr = s.rspErr := rfl
@[simp] theorem State.enterData_cmdValid (s : State) (p : Phase) : (s.enterData p).cmdValid = s.cmdValid := rfl
@[simp] theorem State.enterData_cmd (s : State) (p : Phase) : (s.enterData p).cmd = s.cmd := rfl
@[simp] theorem State.enterData_rst (s : State) (p : Phase) : (s.enterData p).rst = s.rst := rfl
@[simp] theorem State.enterData_rstAt (s : State) (p : Phase) : (s.enterData p).rstAt = s.rstAt := rfl
@[simp] theorem State.enterData_program (s : State) (p : Phase) : (s.enterData p).program = s.program := rfl
@[simp] theorem State.enterData_plat (s : State) (p : Phase) : (s.enterData p).plat = s.plat := rfl
@[simp] theorem State.enterData_draws (s : State) (p : Phase) : (s.enterData p).draws = s.draws := rfl
@[simp] theorem State.enterData_wholeFrame (s : State) (p : Phase) : (s.enterData p).wholeFrame = s.wholeFrame := rfl
@[simp] theorem State.enterData_trace (s : State) (p : Phase) : (s.enterData p).trace = s.trace := rfl

/-! ### `complete` -/

@[simp] theorem State.complete_phase (s : State) (data : Byte) : (s.complete data).phase = .idle := rfl
@[simp] theorem State.complete_pin (s : State) (data : Byte) : (s.complete data).pin = s.pin := rfl
@[simp] theorem State.complete_bound (s : State) (data : Byte) : (s.complete data).bound = s.bound := rfl
@[simp] theorem State.complete_bp (s : State) (data : Byte) : (s.complete data).bp = s.bp := rfl
@[simp] theorem State.complete_configured (s : State) (data : Byte) : (s.complete data).configured = s.configured := rfl
@[simp] theorem State.complete_dir (s : State) (data : Byte) : (s.complete data).dir = s.dir := rfl
@[simp] theorem State.complete_olat (s : State) (data : Byte) : (s.complete data).olat = s.olat := rfl
@[simp] theorem State.complete_im (s : State) (data : Byte) : (s.complete data).im = s.im := rfl
@[simp] theorem State.complete_now (s : State) (data : Byte) : (s.complete data).now = s.now := rfl
@[simp] theorem State.complete_idx (s : State) (data : Byte) : (s.complete data).idx = s.idx := rfl
@[simp] theorem State.complete_txb (s : State) (data : Byte) : (s.complete data).txb = s.txb := rfl
@[simp] theorem State.complete_rxb (s : State) (data : Byte) : (s.complete data).rxb = s.rxb := rfl
@[simp] theorem State.complete_t0 (s : State) (data : Byte) : (s.complete data).t0 = s.t0 := rfl
@[simp] theorem State.complete_cfgf (s : State) (data : Byte) : (s.complete data).cfgf = s.cfgf := rfl
@[simp] theorem State.complete_timedOut (s : State) (data : Byte) : (s.complete data).timedOut = s.timedOut := rfl
@[simp] theorem State.complete_rspValid (s : State) (data : Byte) : (s.complete data).rspValid = true := rfl
@[simp] theorem State.complete_rspData (s : State) (data : Byte) : (s.complete data).rspData = data := rfl
@[simp] theorem State.complete_rspErr (s : State) (data : Byte) : (s.complete data).rspErr = .ok := rfl
@[simp] theorem State.complete_cmdValid (s : State) (data : Byte) : (s.complete data).cmdValid = s.cmdValid := rfl
@[simp] theorem State.complete_cmd (s : State) (data : Byte) : (s.complete data).cmd = s.cmd := rfl
@[simp] theorem State.complete_rst (s : State) (data : Byte) : (s.complete data).rst = s.rst := rfl
@[simp] theorem State.complete_rstAt (s : State) (data : Byte) : (s.complete data).rstAt = s.rstAt := rfl
@[simp] theorem State.complete_program (s : State) (data : Byte) : (s.complete data).program = s.program := rfl
@[simp] theorem State.complete_plat (s : State) (data : Byte) : (s.complete data).plat = s.plat := rfl
@[simp] theorem State.complete_draws (s : State) (data : Byte) : (s.complete data).draws = s.draws := rfl
@[simp] theorem State.complete_wholeFrame (s : State) (data : Byte) : (s.complete data).wholeFrame = s.wholeFrame := rfl
@[simp] theorem State.complete_trace (s : State) (data : Byte) : (s.complete data).trace = s.trace := rfl

/-! ### `tick` -/

@[simp] theorem State.tick_phase (s : State) : (s.tick).phase = s.phase := rfl
@[simp] theorem State.tick_pin (s : State) : (s.tick).pin = s.pin := rfl
@[simp] theorem State.tick_bound (s : State) : (s.tick).bound = s.bound := rfl
@[simp] theorem State.tick_bp (s : State) : (s.tick).bp = s.bp := rfl
@[simp] theorem State.tick_configured (s : State) : (s.tick).configured = s.configured := rfl
@[simp] theorem State.tick_dir (s : State) : (s.tick).dir = s.dir := rfl
@[simp] theorem State.tick_olat (s : State) : (s.tick).olat = s.olat := rfl
@[simp] theorem State.tick_im (s : State) : (s.tick).im = s.im := rfl
@[simp] theorem State.tick_now (s : State) : (s.tick).now = s.now + 1 := rfl
@[simp] theorem State.tick_idx (s : State) : (s.tick).idx = s.idx := rfl
@[simp] theorem State.tick_txb (s : State) : (s.tick).txb = s.txb := rfl
@[simp] theorem State.tick_rxb (s : State) : (s.tick).rxb = s.rxb := rfl
@[simp] theorem State.tick_t0 (s : State) : (s.tick).t0 = s.t0 := rfl
@[simp] theorem State.tick_cfgf (s : State) : (s.tick).cfgf = s.cfgf := rfl
@[simp] theorem State.tick_timedOut (s : State) : (s.tick).timedOut = s.timedOut := rfl
@[simp] theorem State.tick_rspValid (s : State) : (s.tick).rspValid = false := rfl
@[simp] theorem State.tick_rspData (s : State) : (s.tick).rspData = s.rspData := rfl
@[simp] theorem State.tick_rspErr (s : State) : (s.tick).rspErr = s.rspErr := rfl
@[simp] theorem State.tick_cmdValid (s : State) : (s.tick).cmdValid = s.cmdValid := rfl
@[simp] theorem State.tick_cmd (s : State) : (s.tick).cmd = s.cmd := rfl
@[simp] theorem State.tick_rst (s : State) : (s.tick).rst = s.rst := rfl
@[simp] theorem State.tick_rstAt (s : State) : (s.tick).rstAt = s.rstAt := rfl
@[simp] theorem State.tick_program (s : State) : (s.tick).program = s.program := rfl
@[simp] theorem State.tick_plat (s : State) : (s.tick).plat = s.plat := rfl
@[simp] theorem State.tick_draws (s : State) : (s.tick).draws = s.draws := rfl
@[simp] theorem State.tick_wholeFrame (s : State) : (s.tick).wholeFrame = s.wholeFrame := rfl
@[simp] theorem State.tick_trace (s : State) : (s.tick).trace = s.trace := rfl

end Sys2Proof.Machine
end

