-- ==== Sys2Proof/Laws/Ops.lean ====
section
/-! SUPPORT. What each shared operation can do, said once. -/

namespace Sys2Proof.Machine

/-! ### The environment -/

/-- The wire is driven during a span exactly when it is driven at some microsecond of it. -/
theorem drivesIn_iff (d : Drive) (es : List Edge) (lo hi : Nat) :
    drivesIn d es lo hi = true ↔ ∃ t, lo ≤ t ∧ t < hi ∧ (driveAt d es t).drives = true := by
  induction es generalizing d lo with
  | nil =>
    simp only [drivesIn, driveAt, Bool.and_eq_true, decide_eq_true_eq]
    exact ⟨fun h => ⟨lo, le_refl _, h.2, h.1⟩, fun ⟨t, h₁, h₂, h₃⟩ => ⟨h₃, by omega⟩⟩
  | cons e es ih =>
    simp only [drivesIn, driveAt, Bool.or_eq_true, Bool.and_eq_true, decide_eq_true_eq, ih]
    constructor
    · rintro (⟨hd, hlt⟩ | ⟨t, h₁, h₂, h₃⟩)
      · exact ⟨lo, le_refl _, by omega, by rw [if_pos (by omega)]; exact hd⟩
      · exact ⟨t, by omega, h₂, by rw [if_neg (by omega)]; exact h₃⟩
    · rintro ⟨t, h₁, h₂, h₃⟩
      by_cases ht : t < e.time
      · rw [if_pos ht] at h₃
        exact .inl ⟨h₃, by omega⟩
      · rw [if_neg ht] at h₃
        exact .inr ⟨t, by omega, h₂, h₃⟩

theorem Env.drivenIn_iff (env : Env) (lo hi : Nat) :
    env.drivenIn lo hi = true ↔ ∃ t, lo ≤ t ∧ t < hi ∧ (env.at t).drives = true :=
  drivesIn_iff env.first env.edges lo hi

/-- A span nobody drives has only spans nobody drives inside it. -/
theorem Env.drivenIn_mono {env : Env} {lo hi lo' hi' : Nat} (h : env.drivenIn lo hi = false)
    (hlo : lo ≤ lo') (hhi : hi' ≤ hi) : env.drivenIn lo' hi' = false := by
  rw [Bool.eq_false_iff, Ne, Env.drivenIn_iff] at *
  exact fun ⟨t, h₁, h₂, h₃⟩ => h ⟨t, by omega, by omega, h₃⟩

theorem wireLevel_input (env : Env) (olat : Level) (t : Nat) : wireLevel env .input olat t = env.levelAt t := rfl

theorem wireLevel_output {env : Env} {t : Nat} (olat : Level) (h : (env.at t).drives = false) :
    wireLevel env .output olat t = olat := by simp [wireLevel, h]

/-! ### The pin register space -/

/-- A write to a location is what a later read of it gives, and every other location that is stored keeps its
bit. -/
theorem State.memRead_memWrite {s t : State} {r q : PinReg} {v : Bool} (h : s.memWrite r v = .ok t)
    (hq : q ≠ .pinlvl) : t.memRead q = if q = r then v else s.memRead q := by
  cases r <;> cases q <;> simp_all [State.memWrite] <;> subst h <;> simp [State.memRead]

/-! ### Draws and waits -/

theorem State.drawn_le (s : State) (hi : Nat) : s.drawn hi ≤ hi := by
  unfold State.drawn
  split
  · omega
  · exact Nat.lt_succ_iff.mp (Nat.mod_lt _ (Nat.succ_pos hi))

theorem State.drawn_zero (s : State) : s.drawn 0 = 0 := rfl

theorem State.waitTime_masked {s : State} (d : Nat) (h : s.im = true) : s.waitTime d = d := by
  simp [State.waitTime, h, Config.jMasked, State.drawn_zero]

theorem State.le_waitTime (s : State) (d : Nat) : d ≤ s.waitTime d := Nat.le_add_right d _

theorem State.waitTime_le (s : State) (d : Nat) : s.waitTime d ≤ d + s.plat.jOpen := by
  unfold State.waitTime
  split
  · simp [Config.jMasked, State.drawn_zero]
  · exact Nat.add_le_add_left (s.drawn_le _) d

theorem State.cutAfter_none {s : State} (n : Nat) (h : s.rstAt = []) : s.cutAfter n = none := by
  simp [State.cutAfter, h]

theorem State.resetDue_none {s : State} (h : s.rst = none) (hr : s.rstAt = []) : s.resetDue = false := by
  simp [State.resetDue, h, hr]

/-- No reset is due exactly when none is asserted and the next assertion, if any, is still to come. -/
theorem State.resetDue_false {s : State} :
    s.resetDue = false ↔ s.rst = none ∧ ∀ r rest, s.rstAt = r :: rest → s.now.toNat < r.start.toNat := by
  unfold State.resetDue
  cases hr : s.rst <;> cases ha : s.rstAt <;> simp

/-- Everything a step of a block under reset can do: take the assertion that is due, hold, or release. -/
theorem State.underReset_cases (s : State) :
    (s.rst = none ∧ s.underReset = s.takeReset) ∨
    (∃ u, s.rst = some u ∧ s.now.toNat < u.toNat ∧ s.underReset = { s.resetBlock with now := s.now + 1 }) ∨
    (∃ u, s.rst = some u ∧ u.toNat ≤ s.now.toNat ∧ s.underReset = { s.resetBlock with rst := none }) := by
  unfold State.underReset
  cases hr : s.rst with
  | none => exact .inl ⟨rfl, rfl⟩
  | some u =>
    right
    by_cases hu : u.toNat ≤ s.now.toNat
    · exact .inr ⟨u, rfl, hu, by simp [hu]⟩
    · exact .inl ⟨u, rfl, by omega, by simp [hu]⟩

@[simp] theorem State.underReset_phase (s : State) : s.underReset.phase = .unbound := by
  rcases s.underReset_cases with ⟨_, h⟩ | ⟨_, _, _, h⟩ | ⟨_, _, _, h⟩ <;> simp [h]

/-- What a step under reset leaves alone, and that the block is as after reset. -/
theorem State.underReset_frame (s : State) :
    s.underReset.bound = false ∧ s.underReset.configured = false ∧ s.underReset.dir = .input ∧
    s.underReset.im = false ∧ s.underReset.cfgf = false ∧ s.underReset.timedOut = false ∧
    s.underReset.rspValid = false ∧ s.underReset.cmdValid = s.cmdValid ∧ s.underReset.cmd = s.cmd ∧
    s.underReset.program = s.program ∧ s.underReset.plat = s.plat ∧ s.underReset.draws = s.draws ∧
    s.underReset.wholeFrame = s.wholeFrame := by
  rcases s.underReset_cases with ⟨_, h⟩ | ⟨_, _, _, h⟩ | ⟨_, _, _, h⟩ <;> simp [h]

theorem State.contended_input {s : State} (n : Nat) (h : s.dir = .input) : s.contended n = false := by
  simp [State.contended, h]

theorem State.contended_false {s : State} (n : Nat)
    (h : s.plat.env.drivenIn s.now.toNat (s.now.toNat + n) = false) : s.contended n = false := by
  unfold State.contended
  split <;> simp_all

/-- Everything `elapse` can do. -/
theorem State.elapse_cases (s : State) (n : Nat) :
    (s.cutAfter n = none ∧ s.contended n = false ∧ s.elapse n = .done (s.advance n)) ∨
    (∃ k, k ≤ n ∧ s.cutAfter n = some k ∧ s.contended k = false ∧
      s.elapse n = .cut (s.advance k).takeReset) ∨
    (∃ k, k ≤ n ∧ s.contended k = true ∧ s.elapse n = .contention) := by
  have hk : ∀ k, s.cutAfter n = some k → k ≤ n := by
    intro k hk
    unfold State.cutAfter at hk
    split at hk
    · simp at hk
    · split at hk
      · simp at hk; omega
      · simp at hk
  unfold State.elapse
  cases hc : s.cutAfter n with
  | none =>
    cases hd : s.contended n with
    | false => exact .inl ⟨rfl, rfl, by simp⟩
    | true => exact .inr (.inr ⟨n, le_refl _, hd, by simp⟩)
  | some k =>
    cases hd : s.contended k with
    | false => exact .inr (.inl ⟨k, hk k hc, rfl, hd, by simp [hd]⟩)
    | true => exact .inr (.inr ⟨k, hk k hc, hd, by simp [hd]⟩)

/-- A wait that no reset cuts and nobody contends lasts its time. -/
theorem State.elapse_done {s : State} {n : Nat} (hr : s.rstAt = []) (hc : s.contended n = false) :
    s.elapse n = .done (s.advance n) := by
  simp [State.elapse, State.cutAfter_none n hr, hc]

theorem State.countDraw_waitTime_le (s : State) (d : Nat) : s.waitTime d ≤ d + s.plat.jOpen := s.waitTime_le d

/-- `DELAY` when no reset cuts it and nobody contends. -/
theorem State.delay_done {s : State} {d : Nat} (hr : s.rstAt = [])
    (hc : s.contended (s.waitTime d) = false) :
    s.delay d = .done (s.countDraw.advance (s.waitTime d)) := by
  unfold State.delay
  exact State.elapse_done hr hc

/-- `DELAY` of an input pin when no reset cuts it. -/
theorem State.delay_input {s : State} {d : Nat} (hr : s.rstAt = []) (hd : s.dir = .input) :
    s.delay d = .done (s.countDraw.advance (s.waitTime d)) :=
  State.delay_done hr (State.contended_input _ hd)

/-- Everything that can follow a wait. -/
theorem Held.andThen_next {h : Held} {k : State → State} {t : State} (e : h.andThen k = .next t) :
    (∃ s, h = .done s ∧ t = k s) ∨ h = .cut t := by
  cases h with
  | done s => left; exact ⟨s, rfl, by simpa [Held.andThen] using e.symm⟩
  | cut s => right; simp [Held.andThen] at e; simp [e]
  | contention => simp [Held.andThen] at e

/-- Everything that can follow a `DELAY`: the time passed and what follows was done, or a reset cut it. -/
theorem State.delay_andThen_next {s t : State} {d : Nat} {k : State → State}
    (e : (s.delay d).andThen k = .next t) :
    t = k (s.countDraw.advance (s.waitTime d)) ∨
    ∃ n, n ≤ s.waitTime d ∧ s.rstAt ≠ [] ∧ t = (s.countDraw.advance n).takeReset := by
  rcases Held.andThen_next e with ⟨u, hu, rfl⟩ | hc
  · left
    unfold State.delay at hu
    rcases s.countDraw.elapse_cases (s.waitTime d) with ⟨_, _, h⟩ | ⟨k', _, _, _, h⟩ | ⟨_, _, _, h⟩ <;>
      rw [h] at hu <;> simp at hu
    rw [← hu]
  · right
    unfold State.delay at hc
    rcases s.countDraw.elapse_cases (s.waitTime d) with ⟨_, _, h⟩ | ⟨n, hn, hcut, _, h⟩ | ⟨_, _, _, h⟩ <;>
      rw [h] at hc <;> simp at hc
    refine ⟨n, hn, ?_, hc.symm⟩
    intro hr
    rw [State.cutAfter_none _ (by simpa using hr)] at hcut
    simp at hcut

/-! ### The sequencer's position -/

/-- A micro-operation that gives a next state ran in its own phase. -/
theorem State.inPhase_next {s t : State} {p : Phase} {k : State → Host.Outcome State Fault Refusal}
    (e : s.inPhase p k = .next t) : s.phase = p ∧ k s = .next t := by
  unfold State.inPhase at e
  split at e
  · exact ⟨by assumption, e⟩
  · simp at e

theorem State.inPhase_run {s : State} {p : Phase} (k : State → Host.Outcome State Fault Refusal)
    (h : s.phase = p) : s.inPhase p k = k s := by simp [State.inPhase, h]

theorem State.inPhase_refused {s : State} {p : Phase} (k : State → Host.Outcome State Fault Refusal)
    (h : s.phase ≠ p) : s.inPhase p k = .refused .notCallable := by simp [State.inPhase, h]

/-- A data cell before the last: the next one follows. -/
theorem State.afterTxBit_more {s : State} (h : s.idx.toNat < 7) :
    s.afterTxBit = { s with idx := s.idx + 1 } := by
  unfold State.afterTxBit
  rw [if_pos (by omega)]

/-- The last data cell: the stop cell follows. -/
theorem State.afterTxBit_last {s : State} (h : 7 ≤ s.idx.toNat) :
    s.afterTxBit = { s with idx := 8, phase := .wStop } := by
  unfold State.afterTxBit
  rw [if_neg (by omega)]

/-- A sample before the last. -/
theorem State.afterRxBit_more {s : State} (v : Level) (h : s.idx.toNat < 7) :
    s.afterRxBit v = { s with rxb := rxInsert s.rxb v s.idx, idx := s.idx + 1 } := by
  unfold State.afterRxBit
  rw [if_pos (by omega)]

/-- The last sample: the READ completes with the byte. -/
theorem State.afterRxBit_last {s : State} (v : Level) (h : 7 ≤ s.idx.toNat) :
    s.afterRxBit v = { s with rxb := rxInsert s.rxb v s.idx, idx := 8 }.complete (rxInsert s.rxb v s.idx) := by
  unfold State.afterRxBit
  rw [if_neg (by omega)]

/-- Everything the gate of all commands can say. -/
theorem State.notReady_none {s : State} : s.notReady = none ↔ s.phase ≠ .faulted ∧ s.busy = false := by
  unfold State.notReady
  split <;> simp_all

/-- Everything the gate of CONFIGURE, WRITE and READ can say. -/
theorem State.notIdle_none {s : State} : s.notIdle = none ↔ s.bound = true ∧ s.phase = .idle := by
  unfold State.notIdle State.notReady State.busy
  cases hp : s.phase <;> cases hb : s.bound <;> simp [Phase.inTransfer]

/-- Everything the gate of WRITE and READ can say. -/
theorem State.noTransfer_none {s : State} :
    s.noTransfer = none ↔ s.bound = true ∧ s.phase = .idle ∧ s.configured = true := by
  unfold State.noTransfer
  cases h : s.notIdle with
  | some r =>
    have : ¬(s.bound = true ∧ s.phase = .idle) := by rw [← State.notIdle_none, h]; simp
    simp only [reduceCtorEq, false_iff]
    exact fun ⟨h₁, h₂, _⟩ => this ⟨h₁, h₂⟩
  | none =>
    have := State.notIdle_none.mp h
    cases hc : s.configured <;> simp [this]

/-! ### What the four commands can do -/

/-- Everything BIND can do when it gives a next state. -/
theorem execBind_next {pin : PinId} {s t : State} (e : execBind pin s = .next t) :
    s.phase = .unbound ∧ s.bound = false ∧
    ((pin ∈ s.plat.pinFail ∧ t = s.configurationFailure) ∨
     (pin ∉ s.plat.pinFail ∧ pin ∉ s.plat.otherPins ∧ t = ({ s with pin := pin, bound := true }.setDirection .input).complete 0)) := by
  unfold execBind at e
  cases hn : s.notReady with
  | some r => simp [hn] at e
  | none =>
    simp only [hn] at e
    by_cases hb : s.bound = true ∨ s.phase ≠ .unbound
    · rw [if_pos hb] at e; simp at e
    · rw [if_neg hb] at e
      rw [not_or, not_not, Bool.not_eq_true] at hb
      refine ⟨hb.2, hb.1, ?_⟩
      by_cases hf : pin ∈ s.plat.pinFail
      · rw [if_pos hf] at e
        exact .inl ⟨hf, by simpa using e.symm⟩
      · rw [if_neg hf] at e
        by_cases ho : pin ∈ s.plat.otherPins
        · rw [if_pos ho] at e; simp at e
        · rw [if_neg ho] at e
          exact .inr ⟨hf, ho, by simpa using e.symm⟩

/-- Everything CONFIGURE can do when it gives a next state. -/
theorem execConfigure_next {baud : Word32} {s t : State} (e : execConfigure baud s = .next t) :
    s.bound = true ∧ s.phase = .idle ∧ 1 ≤ baud.toNat ∧ baud.toNat ≤ 999999 ∧
    t = { s with bp := bitPeriod baud, configured := true }.complete 0 := by
  unfold execConfigure at e
  cases hn : s.notIdle with
  | some r => simp [hn] at e
  | none =>
    have hs := State.notIdle_none.mp hn
    simp only [hn] at e
    by_cases h₁ : baud.toNat < Config.baudMin
    · rw [if_pos h₁] at e; simp at e
    · rw [if_neg h₁] at e
      by_cases h₂ : Config.baudMax < baud.toNat
      · rw [if_pos h₂] at e; simp at e
      · rw [if_neg h₂] at e
        unfold Config.baudMin at h₁
        unfold Config.baudMax at h₂
        exact ⟨hs.1, hs.2, by omega, by omega, by simpa using e.symm⟩

/-- Everything WRITE can do when it gives a next state. -/
theorem execWrite_next {byte : Byte} {s t : State} (e : execWrite byte s = .next t) :
    s.bound = true ∧ s.phase = .idle ∧ s.configured = true ∧ t = { s with txb := byte, phase := .wStart } := by
  unfold execWrite at e
  cases hn : s.noTransfer with
  | some r => simp [hn] at e
  | none =>
    have hs := State.noTransfer_none.mp hn
    exact ⟨hs.1, hs.2.1, hs.2.2, by simpa [hn] using e.symm⟩

/-- Everything READ can do when it gives a next state. -/
theorem execRead_next {s t : State} (e : execRead s = .next t) :
    s.bound = true ∧ s.phase = .idle ∧ s.configured = true ∧
    t = { s with rxb := 0, timedOut := false, t0 := s.now, phase := .rPoll } := by
  unfold execRead at e
  cases hn : s.noTransfer with
  | some r => simp [hn] at e
  | none =>
    have hs := State.noTransfer_none.mp hn
    exact ⟨hs.1, hs.2.1, hs.2.2, by simpa [hn] using e.symm⟩

end Sys2Proof.Machine
end

