-- ==== Sys2Proof/Laws/PerInstr.lean ====
section
/-! SUPPORT. What is said of every instruction as syntax: its code has as many bits as its row of
spec/opcode_table.json gives it. -/

namespace Sys2Proof

/-- The code of the instruction is of the width its row has (spec/30_encoding.md R71, R74, R81). -/
def Laws.EncodeWidth.Statement (i : Instr) : Prop := (encode i).width = i.tableWidth

theorem Laws.EncodeWidth.bind (pin : PinId) : Laws.EncodeWidth.Statement (.bind pin) := rfl
theorem Laws.EncodeWidth.configure (baud : Word32) : Laws.EncodeWidth.Statement (.configure baud) := rfl
theorem Laws.EncodeWidth.write (byte : Byte) : Laws.EncodeWidth.Statement (.write byte) := rfl
theorem Laws.EncodeWidth.read : Laws.EncodeWidth.Statement .read := rfl
theorem Laws.EncodeWidth.frame (byte : Byte) : Laws.EncodeWidth.Statement (.frame byte) := rfl
theorem Laws.EncodeWidth.start : Laws.EncodeWidth.Statement .start := rfl
theorem Laws.EncodeWidth.bitw1 : Laws.EncodeWidth.Statement .bitw1 := rfl
theorem Laws.EncodeWidth.bitw0 : Laws.EncodeWidth.Statement .bitw0 := rfl
theorem Laws.EncodeWidth.stop : Laws.EncodeWidth.Statement .stop := rfl
theorem Laws.EncodeWidth.poll : Laws.EncodeWidth.Statement .poll := rfl
theorem Laws.EncodeWidth.align : Laws.EncodeWidth.Statement .align := rfl
theorem Laws.EncodeWidth.bitr : Laws.EncodeWidth.Statement .bitr := rfl

end Sys2Proof
end

