-- ==== Sys2Proof/Laws/Step.lean ====
section
/-! SUPPORT. What one step can do, said once; runs put together; the encodings of the micro-operations. -/

namespace Sys2Proof.Machine

/-! ### The codes the sequencer makes -/

theorem decode_frameWord (b : Byte) : decode (.wire (frameWord b)) = .ok (.frame b) := by
  revert b
  decide

/-- The instruction a transfer's position selects. -/
def State.current (s : State) : Option Instr :=
  match s.phase with
  | .unbound | .idle | .faulted => none
  | .wStart => if s.wholeFrame then some (.frame s.txb) else some .start
  | .wBit => some (if s.txb.getLsbD s.idx.toNat then .bitw1 else .bitw0)
  | .wStop => some .stop
  | .rPoll => some .poll
  | .rAlign => some .align
  | .rBit => some .bitr

/-- A position that selects a code selects the instruction it decodes to. -/
theorem State.selected_decodes (s : State) :
    match s.selected with
    | some c => ∃ i, s.current = some i ∧ decode c = .ok i
    | none => s.current = none := by
  unfold State.selected State.current
  cases hp : s.phase <;> simp only
  · cases s.wholeFrame
    · exact ⟨.start, rfl, rfl⟩
    · exact ⟨_, rfl, decode_frameWord _⟩
  · unfold txBit
    cases s.txb.getLsbD s.idx.toNat
    · exact ⟨_, rfl, rfl⟩
    · exact ⟨_, rfl, rfl⟩
  · exact ⟨_, rfl, rfl⟩
  · exact ⟨_, rfl, rfl⟩
  · exact ⟨_, rfl, rfl⟩
  · exact ⟨_, rfl, rfl⟩

theorem State.selected_none_iff (s : State) : s.selected = none ↔ s.busy = false := by
  unfold State.selected State.busy
  cases hp : s.phase <;> simp [Phase.inTransfer]
  split <;> simp

@[simp] theorem State.endPulse_selected (s : State) : s.endPulse.selected = s.selected := rfl
@[simp] theorem State.endPulse_busy (s : State) : s.endPulse.busy = s.busy := rfl

/-! ### Steps -/

/-- A reset that is taken leaves the block as after reset. -/
theorem State.takeReset_asAfterReset (s : State) : s.takeReset.AsAfterReset := by
  simp [State.AsAfterReset, State.status, State.busy, Phase.inTransfer]

/-- Every step under reset leaves the block as after reset. -/
theorem State.underReset_asAfterReset (s : State) : s.underReset.AsAfterReset := by
  rcases s.underReset_cases with ⟨_, h⟩ | ⟨_, _, _, h⟩ | ⟨_, _, _, h⟩ <;>
    simp [h, State.AsAfterReset, State.status, State.busy, Phase.inTransfer]

/-- With a reset asserted or due a step does nothing else. -/
theorem step_underReset {s : State} (h : s.resetDue = true) : step s = .next s.underReset := by simp [step, h]

/-- A step of a transfer that nothing disturbs runs the instruction its position selects. -/
theorem step_transfer {s : State} {i : Instr} (hr : s.resetDue = false) (hv : s.cmdValid = false)
    (hi : s.current = some i) : step s = exec i s.endPulse := by
  have h := s.selected_decodes
  cases hs : s.selected with
  | none => rw [hs] at h; simp [h] at hi
  | some c =>
    rw [hs] at h
    obtain ⟨j, hj, hd⟩ := h
    obtain rfl : i = j := by simpa [hi] using hj
    simp [step, hr, State.fetch, hs, hv, runCode, hd]

/-- A step of a ready block takes the command at its port. -/
theorem step_command {s : State} {i : Instr} (hr : s.resetDue = false) (hb : s.cmdReady = true)
    (hv : s.cmdValid = true) (hd : decode (.cmd s.cmd) = .ok i) :
    step s = exec i { s with cmdValid := false, rspValid := false } := by
  have hready : s.busy = false ∧ s.phase ≠ .faulted := by
    simpa [State.cmdReady] using hb
  have hs : s.selected = none := (State.selected_none_iff _).mpr hready.1
  have hf : s.fetch = .run (.cmd s.cmd) { s with cmdValid := false, rspValid := false } := by
    simp [State.fetch, hs, State.presented, hv, hready.2]
  simp [step, hr, hf, runCode, hd]

/-- Everything a step can do when it gives a next state: take the reset that is due, run a micro-operation, run a
command that was presented, or let a microsecond pass. -/
theorem step_next {s t : State} (e : step s = .next t) :
    (s.resetDue = true ∧ t = s.underReset) ∨
    (s.resetDue = false ∧ ∃ i, s.current = some i ∧ exec i s.endPulse = .next t) ∨
    (s.resetDue = false ∧ s.busy = false ∧ s.phase ≠ .faulted ∧ ∃ w i u, decode (.cmd w) = .ok i ∧
      (u = { s.endPulse with cmdValid := false } ∨ ∃ rest, u = { s.endPulse with program := rest }) ∧
      exec i u = .next t) ∨
    (s.resetDue = false ∧ s.busy = false ∧ t = s.tick) := by
  unfold step at e
  cases hr : s.resetDue with
  | true => left; exact ⟨rfl, by simpa [hr] using e.symm⟩
  | false =>
    right
    rw [if_neg (by simp [hr])] at e
    have hd := s.selected_decodes
    unfold State.fetch at e
    simp only [State.endPulse_selected] at e
    cases hs : s.selected with
    | some c =>
      rw [hs] at hd
      obtain ⟨i, hi, hdec⟩ := hd
      left
      refine ⟨rfl, i, hi, ?_⟩
      simp only [hs] at e
      cases hv : s.cmdValid with
      | true => simp [hv] at e
      | false => simpa [hv, runCode, hdec] using e
    | none =>
      right
      have hb := (State.selected_none_iff s).mp hs
      simp only [hs] at e
      cases hp : s.endPulse.presented with
      | none =>
        right
        refine ⟨rfl, hb, ?_⟩
        simp only [hp] at e
        by_cases hf : s.endPulse.phase = .faulted ∧ s.endPulse.rstAt = []
        · rw [if_pos hf] at e; simp at e
        · rw [if_neg hf] at e; simpa using e.symm
      | some p =>
        obtain ⟨w, u⟩ := p
        left
        simp only [hp] at e
        by_cases hf : s.endPulse.phase = .faulted
        · rw [if_pos hf] at e; simp at e
        · rw [if_neg hf] at e
          refine ⟨rfl, hb, by simpa using hf, ?_⟩
          have hu : u = { s.endPulse with cmdValid := false } ∨
              ∃ rest, u = { s.endPulse with program := rest } := by
            unfold State.presented at hp
            by_cases hv : s.endPulse.cmdValid = true
            · rw [if_pos hv] at hp; simp at hp; exact .inl hp.2.symm
            · rw [if_neg hv] at hp
              cases hq : s.endPulse.program with
              | nil => rw [hq] at hp; simp at hp
              | cons i rest =>
                simp only [hq] at hp
                by_cases hdue : i.due.toNat ≤ s.endPulse.now.toNat
                · rw [if_pos hdue] at hp; simp at hp; exact .inr ⟨rest, hp.2.symm⟩
                · rw [if_neg hdue] at hp; simp at hp
          simp only [runCode] at e
          cases hdec : decode (.cmd w) with
          | error err => simp [hdec] at e
          | ok i => exact ⟨w, i, u, hdec, hu, by simpa [hdec] using e⟩

/-- Every command word that decodes stands for one of the four commands. -/
theorem decodeCmd_ok {w : CmdWord} {i : Instr} (h : decode (.cmd w) = .ok i) :
    (∃ pin, i = .bind pin) ∨ (∃ baud, i = .configure baud) ∨ (∃ byte, i = .write byte) ∨ i = .read := by
  simp only [decode, decodeCmd] at h
  split at h
  · split at h
    · exact .inl ⟨_, by simpa using h.symm⟩
    · simp at h
  · split at h
    · exact .inr (.inl ⟨_, by simpa using h.symm⟩)
    · split at h
      · split at h
        · exact .inr (.inr (.inl ⟨_, by simpa using h.symm⟩))
        · simp at h
      · split at h
        · exact .inr (.inr (.inr (by simpa using h.symm)))
        · simp at h

/-! ### Runs -/

theorem steps_succ {k : Nat} {s t : State} (h : step s = .next t) : steps (k + 1) s = steps k t := by
  simp [steps, h]

/-- Runs follow each other. -/
theorem steps_add (a b : Nat) (s t : State) (h : steps a s = .next t) : steps (a + b) s = steps b t := by
  induction a generalizing s with
  | zero => simp [steps] at h; simp [h]
  | succ a ih =>
    rw [Nat.succ_add]
    simp only [steps] at h ⊢
    cases hs : step s with
    | next u => rw [hs] at h; exact ih u h
    | fault r => rw [hs] at h; simp at h
    | refused r => rw [hs] at h; simp at h

/-- The host's runs of the core are these runs. -/
theorem run_core_eq_steps (k : Nat) (s : State) :
    Host.Core.run { State := State, Fault := Fault, Refusal := Refusal, step := step, reset := State.reset } k s =
      steps k s := by
  induction k generalizing s with
  | zero => rfl
  | succ k ih =>
    simp only [Host.Core.run, steps]
    cases step s with
    | next t => exact ih t
    | fault r => rfl
    | refused r => rfl

/-! ### Everything the micro-operations can do -/

/-- START: the cell is over, or a reset cut it. -/
theorem startCell_next {s t : State} (e : s.startCell = .next t) :
    t = (((((s.mask.setDirection .output).setLevel .low).countDraw.advance s.bp.toNat).unmask).enterData .wBit) ∨
    ∃ n, s.rstAt ≠ [] ∧ n ≤ s.bp.toNat ∧
      t = (((s.mask.setDirection .output).setLevel .low).countDraw.advance n).takeReset := by
  have hw : ((s.mask.setDirection .output).setLevel .low).waitTime s.bp.toNat = s.bp.toNat :=
    State.waitTime_masked _ (by simp)
  rcases State.delay_andThen_next e with h | ⟨n, hn, hr, h⟩
  · rw [hw] at h; exact .inl h
  · rw [hw] at hn; exact .inr ⟨n, by simpa using hr, hn, h⟩

/-- BITW1: the cell is over, or a reset cut it. -/
theorem highCell_next {s t : State} (e : s.highCell = .next t) :
    (∃ j, j ≤ s.plat.jOpen ∧ t = ((((s.mask.setDirection .output).setLevel .high).unmask).countDraw.advance
      (s.bp.toNat + j)).afterTxBit) ∨
    ∃ n, s.rstAt ≠ [] ∧ n ≤ s.bp.toNat + s.plat.jOpen ∧
      t = ((((s.mask.setDirection .output).setLevel .high).unmask).countDraw.advance n).takeReset := by
  rcases State.delay_andThen_next e with h | ⟨n, hn, hr, h⟩
  · exact .inl ⟨_, State.drawn_le _ _, h⟩
  · exact .inr ⟨n, by simpa using hr, le_trans hn (State.waitTime_le _ _), h⟩

/-- BITW0: the cell is over, or a reset cut it. -/
theorem lowCell_next {s t : State} (e : s.lowCell = .next t) :
    (∃ j, j ≤ s.plat.jOpen ∧ t = ((((s.mask.setLevel .low).setDirection .output).unmask).countDraw.advance
      (s.bp.toNat + j)).afterTxBit) ∨
    ∃ n, s.rstAt ≠ [] ∧ n ≤ s.bp.toNat + s.plat.jOpen ∧
      t = ((((s.mask.setLevel .low).setDirection .output).unmask).countDraw.advance n).takeReset := by
  rcases State.delay_andThen_next e with h | ⟨n, hn, hr, h⟩
  · exact .inl ⟨_, State.drawn_le _ _, h⟩
  · exact .inr ⟨n, by simpa using hr, le_trans hn (State.waitTime_le _ _), h⟩

/-- STOP: the cell is over, or a reset cut it. -/
theorem stopCell_next {s t : State} (e : s.stopCell = .next t) :
    t = ((((((s.mask.setLevel .high).countDraw.advance s.bp.toNat).setDirection .input).setLevel .low).unmask).complete
      0) ∨
    ∃ n, s.rstAt ≠ [] ∧ n ≤ s.bp.toNat ∧ t = ((s.mask.setLevel .high).countDraw.advance n).takeReset := by
  have hw : (s.mask.setLevel .high).waitTime s.bp.toNat = s.bp.toNat := State.waitTime_masked _ (by simp)
  rcases State.delay_andThen_next e with h | ⟨n, hn, hr, h⟩
  · rw [hw] at h; exact .inl h
  · rw [hw] at hn; exact .inr ⟨n, by simpa using hr, hn, h⟩

/-- POLL: start detected, timed out, time passed, or a reset cut the turn. -/
theorem pollTurn_next {s t : State} (e : s.pollTurn = .next t) :
    (s.readLevel = .low ∧ t = { s.sampled with phase := .rAlign }) ∨
    (s.readLevel = .high ∧ s.pollExpired = true ∧ t = { s.sampled with timedOut := true, phase := .rAlign }) ∨
    (s.readLevel = .high ∧ s.pollExpired = false ∧
      ∃ j, j ≤ s.plat.jOpen ∧ t = s.sampled.countDraw.advance (1 + j)) ∨
    ∃ n, s.rstAt ≠ [] ∧ n ≤ 1 + s.plat.jOpen ∧ t = (s.sampled.countDraw.advance n).takeReset := by
  unfold State.pollTurn at e
  cases hl : s.readLevel with
  | low => left; simp only [hl, Host.Outcome.next.injEq] at e; exact ⟨rfl, e.symm⟩
  | high =>
    right
    simp only [hl] at e
    cases hx : s.pollExpired with
    | true => left; rw [if_pos hx] at e; exact ⟨rfl, rfl, by simpa only [Host.Outcome.next.injEq] using e.symm⟩
    | false =>
      right
      rw [if_neg (by simp [hx])] at e
      rcases State.delay_andThen_next e with h | ⟨n, hn, hr, h⟩
      · left
        have hw := State.waitTime_le s.sampled Config.pollStep
        unfold State.waitTime at h hw
        exact ⟨rfl, rfl, _, by simpa using hw, h⟩
      · right
        exact ⟨n, by simpa using hr, le_trans hn (State.waitTime_le _ _), h⟩

/-- ALIGN: the delay is over, or a reset cut it. -/
theorem alignCell_next {s t : State} (e : s.alignCell = .next t) :
    (∃ j, j ≤ s.plat.jOpen ∧ t = (s.countDraw.advance ((alignDelay s.bp).toNat + j)).enterData .rBit) ∨
    ∃ n, s.rstAt ≠ [] ∧ n ≤ (alignDelay s.bp).toNat + s.plat.jOpen ∧ t = (s.countDraw.advance n).takeReset := by
  rcases State.delay_andThen_next e with h | ⟨n, hn, hr, h⟩
  · left
    refine ⟨_, ?_, h⟩
    have := State.waitTime_le s (alignDelay s.bp).toNat
    simp only [State.waitTime] at this
    omega
  · exact .inr ⟨n, hr, le_trans hn (State.waitTime_le _ _), h⟩

/-- BITR: the sample is in its place, or a reset cut the hold. -/
theorem sampleCell_next {s t : State} (e : s.sampleCell = .next t) :
    (∃ j, j ≤ s.plat.jOpen ∧ t = (((s.mask.setDirection .input).sampled.unmask).countDraw.advance
      (s.bp.toNat + j)).afterRxBit (s.mask.setDirection .input).readLevel) ∨
    ∃ n, s.rstAt ≠ [] ∧ n ≤ s.bp.toNat + s.plat.jOpen ∧
      t = (((s.mask.setDirection .input).sampled.unmask).countDraw.advance n).takeReset := by
  rcases State.delay_andThen_next e with h | ⟨n, hn, hr, h⟩
  · exact .inl ⟨_, State.drawn_le _ _, h⟩
  · exact .inr ⟨n, by simpa using hr, le_trans hn (State.waitTime_le _ _), h⟩

/-- The next cell of a frame: a step under reset, one of the four cells, or nothing. -/
theorem nextCell_next {s t : State} (e : s.nextCell = .next t) :
    (s.busy = true ∧ s.resetDue = true ∧ t = s.underReset) ∨
    (s.phase = .wStart ∧ s.startCell = .next t) ∨ (s.phase = .wBit ∧ s.highCell = .next t) ∨
    (s.phase = .wBit ∧ s.lowCell = .next t) ∨ (s.phase = .wStop ∧ s.stopCell = .next t) ∨ t = s := by
  unfold State.nextCell at e
  by_cases hr : s.busy = true ∧ s.resetDue = true
  · rw [if_pos hr] at e
    exact .inl ⟨hr.1, hr.2, by simpa using e.symm⟩
  · right
    rw [if_neg hr] at e
    cases hp : s.phase <;> simp only [hp] at e
    case wStart => exact .inl ⟨rfl, e⟩
    case wBit =>
      cases hb : txBit s.txb s.idx <;> simp only [hb] at e
      · exact .inr (.inr (.inl ⟨rfl, e⟩))
      · exact .inr (.inl ⟨rfl, e⟩)
    case wStop => exact .inr (.inr (.inr (.inl ⟨rfl, e⟩)))
    all_goals
      right; right; right; right
      simpa using e.symm

/-- A relation that is reflexive, transitive and kept by every cell is kept by a whole frame. -/
theorem nextCells_rel {R : State → State → Prop} (refl : ∀ s, R s s) (trans : ∀ s t u, R s t → R t u → R s u)
    (cell : ∀ s t, s.nextCell = .next t → R s t) {k : Nat} {s t : State} (e : s.nextCells k = .next t) :
    R s t := by
  induction k generalizing s with
  | zero => simp [State.nextCells] at e; exact e ▸ refl s
  | succ k ih =>
    simp only [State.nextCells] at e
    cases hc : s.nextCell with
    | next u => rw [hc] at e; exact trans _ _ _ (cell s u hc) (ih e)
    | fault r => rw [hc] at e; simp at e
    | refused r => rw [hc] at e; simp at e

/-- FRAME that gives a next state is ten cells from `W_START`. -/
theorem execFrame_next {b : Byte} {s t : State} (e : execFrame b s = .next t) :
    s.txb = b ∧ s.phase = .wStart ∧ s.nextCells 10 = .next t := by
  unfold execFrame at e
  by_cases hb : s.txb = b
  · rw [if_pos hb] at e
    exact ⟨hb, State.inPhase_next e⟩
  · rw [if_neg hb] at e; simp at e

end Sys2Proof.Machine
end

