-- ==== Sys2Proof/Laws/Premises.lean ====
section
/-! SUPPORT. How the premises about clock and wire pass to later instants, and how histories are put together. -/

namespace Sys2Proof.Machine

/-- A wait that fits in the clock adds. -/
theorem State.now_add {s : State} {n d : Nat} (h : s.ClockFits n) (hd : d ≤ n) :
    (s.now + BitVec.ofNat 64 d).toNat = s.now.toNat + d := by
  unfold State.ClockFits at h
  rw [BitVec.toNat_add, BitVec.toNat_ofNat]
  omega

theorem State.WireFree_mono {s : State} {n m : Nat} (h : s.WireFree n) (hm : m ≤ n) : s.WireFree m :=
  Env.drivenIn_mono h (le_refl _) (by omega)

/-- A wire that stays free is free for the rest of the time at a later instant. -/
theorem State.WireFree_later {s t : State} {n d m : Nat} (h : s.WireFree n) (hn : t.now.toNat = s.now.toNat + d)
    (hp : t.plat = s.plat) (hm : d + m ≤ n) : t.WireFree m := by
  unfold State.WireFree at *
  rw [hp]
  exact Env.drivenIn_mono h (by omega) (by omega)

theorem pinAt_append (before : Dir × Level) (late early : List PinEvent) (t : Nat) :
    pinAt before (late ++ early) t = pinAt (pinAt before early t) late t := by
  simp [pinAt, List.foldr_append]

theorem maskedAt_append (before : Bool) (late early : List PinEvent) (t : Nat) :
    maskedAt before (late ++ early) t = maskedAt (maskedAt before early t) late t := by
  simp [maskedAt, List.foldr_append]

theorem countOps_append (k : OpKind) (late early : List PinEvent) :
    countOps k (late ++ early) = countOps k late + countOps k early := by simp [countOps]

theorem sections_append (b : Bool) (first rest : List PinOp) :
    sections b (first ++ rest) = (sections b first).bind fun c => sections c rest := by
  induction first generalizing b with
  | nil => simp [sections]
  | cons o first ih => cases o <;> simp [sections, ih] <;> split <;> simp

/-- With no response pulse standing, ending it changes nothing. -/
theorem State.endPulse_id {s : State} (h : s.rspValid = false) : s.endPulse = s := by
  cases s
  simp_all [State.endPulse]

/-- A step does not see the response pulse. -/
theorem step_endPulse {s : State} (h : s.NoReset) : step s.endPulse = step s := by
  simp [step, State.resetDue, h.1, h.2, State.fetch]
  rfl

theorem steps_one (s : State) : steps 1 s = step s := by
  rw [steps]
  cases step s <;> rfl

/-- Every instruction that gives a next state, and where it ran. -/
theorem exec_next {i : Instr} {s t : State} (e : exec i s = .next t) :
    (∃ pin, i = .bind pin ∧ execBind pin s = .next t) ∨
    (∃ baud, i = .configure baud ∧ execConfigure baud s = .next t) ∨
    (∃ byte, i = .write byte ∧ execWrite byte s = .next t) ∨ (i = .read ∧ execRead s = .next t) ∨
    (∃ byte, i = .frame byte ∧ s.txb = byte ∧ s.phase = .wStart ∧ s.nextCells 10 = .next t) ∨
    (i = .start ∧ s.phase = .wStart ∧ s.startCell = .next t) ∨
    (i = .bitw1 ∧ s.phase = .wBit ∧ s.highCell = .next t) ∨
    (i = .bitw0 ∧ s.phase = .wBit ∧ s.lowCell = .next t) ∨
    (i = .stop ∧ s.phase = .wStop ∧ s.stopCell = .next t) ∨
    (i = .poll ∧ s.phase = .rPoll ∧ s.pollTurn = .next t) ∨
    (i = .align ∧ s.phase = .rAlign ∧ s.alignCell = .next t) ∨
    (i = .bitr ∧ s.phase = .rBit ∧ s.sampleCell = .next t) := by
  cases i <;> simp only [exec] at e
  case frame b => have := execFrame_next e; simp [this]
  case start => have := State.inPhase_next e; simp [this]
  case bitw1 => have := State.inPhase_next e; simp [this]
  case bitw0 => have := State.inPhase_next e; simp [this]
  case stop => have := State.inPhase_next e; simp [this]
  case poll => have := State.inPhase_next e; simp [this]
  case align => have := State.inPhase_next e; simp [this]
  case bitr => have := State.inPhase_next e; simp [this]
  all_goals simp [e]

end Sys2Proof.Machine
end

