-- ==== Sys2Proof/Machine/Assembly.lean ====
section
/-! DEFINITION. The line syntax of the four operations (spec/30_encoding.md R82): a name or its other name, an
operand in decimal or `0x` hexadecimal, one operation a line, `;` begins a comment. What the rule leaves open of the
letters of a line is a DESIGN CHOICE (log 24). -/

namespace Sys2Proof.Machine

/-- Why a line is no operation. -/
inductive AsmError where
  /-- No operation has this name (spec/30_encoding.md R70, R82). -/
  | unknownName
  /-- The operand is missing, is not a number, or is one too many. -/
  | badOperand
  /-- The operand does not fit its field (spec/30_encoding.md R72). -/
  | operandTooWide
deriving DecidableEq, Repr

/-- The value of a digit in a base, if it is one. That hexadecimal digits may be capital or small is a DESIGN CHOICE
(log 24). -/
def digitValue (base : Nat) (c : Char) : Option Nat :=
  let n := c.toNat
  let v :=
    if 48 ≤ n ∧ n ≤ 57 then some (n - 48)
    else if 65 ≤ n ∧ n ≤ 70 then some (n - 55)
    else if 97 ≤ n ∧ n ≤ 102 then some (n - 87)
    else none
  match v with
  | some d => if d < base then some d else none
  | none => none

/-- Digits read onto `acc`; `_` separates digits and means nothing (spec/00_scope.md section 5). Where it may stand
the spec does not say. DESIGN CHOICE (log 24): anywhere here, at the end and doubled too. -/
def readDigits (base : Nat) : List Char → Nat → Option Nat
  | [], acc => some acc
  | c :: cs, acc =>
    if c = '_' then readDigits base cs acc
    else
      match digitValue base c with
      | some d => readDigits base cs (acc * base + d)
      | none => none

/-- A numeral: decimal, or hexadecimal after `0x` (spec/30_encoding.md R82). DESIGN CHOICE (log 24): `_` may not be its
first letter, and may follow `0x`, even with no digit after it, which reads as 0. -/
def readNumeral : List Char → Option Nat
  | [] => none
  | '0' :: 'x' :: c :: cs => readDigits 16 (c :: cs) 0
  | c :: cs => if c = '_' then none else readDigits 10 (c :: cs) 0

/-- The line up to its comment. -/
def beforeComment : List Char → List Char
  | [] => []
  | c :: cs => if c = ';' then [] else c :: beforeComment cs

/-- The words of a line, with spaces and tabs between them (DESIGN CHOICE, log 24); `word` holds the letters of the word being read, last first. -/
def wordsOf : List Char → List Char → List (List Char)
  | [], word => if word.isEmpty then [] else [word.reverse]
  | c :: cs, word =>
    if c = ' ' ∨ c = '\t' then
      if word.isEmpty then wordsOf cs [] else word.reverse :: wordsOf cs []
    else wordsOf cs (c :: word)

/-- An operand that must be below `bound`. -/
def readOperand (bound : Nat) (rest : List (List Char)) : Except AsmError Nat :=
  match rest with
  | [w] =>
    match readNumeral w with
    | some n => if n < bound then .ok n else .error .operandTooWide
    | none => .error .badOperand
  | _ => .error .badOperand

/-- The operation on a line, if any; `NEW` and `BEGIN` are other names of BIND and CONFIGURE
(spec/30_encoding.md R70, R82). That names are in capitals alone, and that a line may hold no operation, is a DESIGN
CHOICE (log 24). -/
def readLine (line : List Char) : Except AsmError (Option Instr) :=
  match wordsOf (beforeComment line) [] with
  | [] => .ok none
  | name :: rest =>
    if name = ['B', 'I', 'N', 'D'] ∨ name = ['N', 'E', 'W'] then
      match readOperand (2 ^ 8) rest with
      | .ok n => .ok (some (.bind (BitVec.ofNat 8 n)))
      | .error e => .error e
    else if name = ['C', 'O', 'N', 'F', 'I', 'G', 'U', 'R', 'E'] ∨ name = ['B', 'E', 'G', 'I', 'N'] then
      match readOperand (2 ^ 32) rest with
      | .ok n => .ok (some (.configure (BitVec.ofNat 32 n)))
      | .error e => .error e
    else if name = ['W', 'R', 'I', 'T', 'E'] then
      match readOperand (2 ^ 8) rest with
      | .ok n => .ok (some (.write (BitVec.ofNat 8 n)))
      | .error e => .error e
    else if name = ['R', 'E', 'A', 'D'] then
      if rest.isEmpty then .ok (some .read) else .error .badOperand
    else .error .unknownName

end Sys2Proof.Machine
end

