-- ==== Sys2Proof/Tests/Slice0.lean ====
section
/-! SUPPORT. The model's own tests. Expected results are those of spec/95_test_vectors.md (its vector stands beside
each) or of a hand calculation from the rule named. The last part shows, for every statement with hypotheses, a
state and operands that meet them. -/

namespace Sys2Proof.Tests

open Sys2Proof Sys2Proof.Machine

/-! ### Well-formedness: one ill-formed term for each check -/

/-- V-C23. -/
theorem test_wf_refuses_baud_zero : (Instr.configure 0).wf = false ∧ baudHasQuotient 0 = false := by decide
/-- V-C20. -/
theorem test_wf_refuses_baud_limit : (Instr.configure 1000000).wf = false ∧ baudBelowLimit 1000000 = false := by
  decide
theorem test_wf_accepts_bounds : (Instr.configure 1).wf = true ∧ (Instr.configure 999999).wf = true := by decide

/-! ### Decoding: words written out from spec/30_encoding.md R71, R72, R74 -/

/-- V-B1: op 00, pin 4. -/
theorem test_decode_bind :
    decode (.cmd 0b00_000000000000000000000000_00000100#34) = .ok (.bind 4) := by decide
/-- V-C9: op 01, 57600 = 0xE100. -/
theorem test_decode_configure :
    decode (.cmd 0b01_00000000000000001110000100000000#34) = .ok (.configure 57600) := by decide
/-- V-W4: op 10, 0xA5. -/
theorem test_decode_write :
    decode (.cmd 0b10_000000000000000000000000_10100101#34) = .ok (.write 0xA5) := by decide
/-- op 11, no operand. -/
theorem test_decode_read : decode (.cmd 0b11_00000000000000000000000000000000#34) = .ok .read := by decide
/-- V-B6, V-W9, V-R17: a reserved bit of BIND, WRITE and READ, the lowest and the highest. -/
theorem test_decode_reserved :
    decode (.cmd 0x000000104#34) = .error .reservedBits ∧ decode (.cmd 0x080000000#34) = .error .reservedBits ∧
    decode (.cmd 0x200000101#34) = .error .reservedBits ∧ decode (.cmd 0x280000000#34) = .error .reservedBits ∧
    decode (.cmd 0x300000001#34) = .error .reservedBits ∧ decode (.cmd 0x380000000#34) = .error .reservedBits := by
  decide
/-- Pattern strings of V-W4, V-W5 and P4, first cell leftmost. -/
theorem test_decode_frame :
    decode (.wire 0b0_10100101_1#10) = .ok (.frame 0xA5) ∧ decode (.wire 0b0_10101010_1#10) = .ok (.frame 0x55) ∧
    decode (.wire 0b0_01010101_1#10) = .ok (.frame 0xAA) ∧ decode (.wire 0b0_01011010_1#10) = .ok (.frame 0x5A) := by
  decide
theorem test_decode_frame_ends :
    decode (.wire 0b1_10100101_1#10) = .error .noStartCell ∧
    decode (.wire 0b0_10100101_0#10) = .error .noStopCell := by decide
/-- The cells of spec/30_encoding.md R74 in their places: cell 0 Low, data cells by bit, cell 9 High. -/
theorem test_decode_cells :
    decode (.cell .framing .low) = .ok .start ∧ decode (.cell .txData .high) = .ok .bitw1 ∧
    decode (.cell .txData .low) = .ok .bitw0 ∧ decode (.cell .framing .high) = .ok .stop ∧
    decode (.cell .rxPoll .low) = .ok .poll ∧ decode (.cell .rxAlign .high) = .ok .align ∧
    decode (.cell .rxData .high) = .ok .bitr ∧ decode (.cell .rxPoll .high) = .error .noSuchCell := by decide
/-- The table's words with their operands 0, in whole bytes. -/
theorem test_table_words :
    decodeTableWord 40 0x000000000 = some (.bind 0) ∧ decodeTableWord 40 0x100000000 = some (.configure 0) ∧
    decodeTableWord 40 0x200000000 = some (.write 0) ∧ decodeTableWord 40 0x300000000 = some .read ∧
    decodeTableWord 40 0x400000000 = none ∧ decodeTableWord 16 0b0000000001 = some (.frame 0) ∧
    decodeTableWord 16 0b10000000001 = none ∧ decodeTableWord 8 0 = some .start ∧ decodeTableWord 8 1 = some .stop ∧
    decodeTableWord 8 3 = some .bitw1 ∧ decodeTableWord 8 2 = some .bitw0 ∧ decodeTableWord 8 4 = some .poll ∧
    decodeTableWord 8 6 = some .align ∧ decodeTableWord 8 8 = some .bitr ∧ decodeTableWord 8 10 = none := by decide

/-! ### The line syntax (spec/30_encoding.md R82; programs P1, P2, P6) -/

theorem test_line_bind_alias :
    readLine "NEW 99 ; P6".toList = .ok (some (.bind 99)) ∧ readLine "BIND 0x63".toList = .ok (some (.bind 99)) := by
  decide
theorem test_line_configure_alias :
    readLine "BEGIN 9_600".toList = .ok (some (.configure 9600)) ∧
    readLine "  CONFIGURE 0x2580 ".toList = .ok (some (.configure 9600)) := by decide
theorem test_line_transfers :
    readLine "WRITE 0xA5".toList = .ok (some (.write 0xA5)) ∧ readLine "READ".toList = .ok (some .read) ∧
    readLine "; nothing".toList = .ok none := by decide
theorem test_line_rejects :
    readLine "WRITE 256".toList = .error .operandTooWide ∧ readLine "READ 1".toList = .error .badOperand ∧
    readLine "START".toList = .error .unknownName := by decide

/-! ### One step of each instruction -/

/-- The premise of most vectors: bound to pin 4, `BP = 104`, idle. -/
def ready : State := { State.reset with phase := .idle, pin := 4, bound := true, bp := 104, configured := true }

/-- That driver at a position of a transfer, at `t`. -/
def during (p : Phase) (t : Time) : State := { ready with phase := p, now := t }

/-- That driver transmitting, the pin an output. -/
def sending (p : Phase) (t : Time) : State := { during p t with dir := .output }

/-- The environment of spec/95_test_vectors.md section 4: the frame of `b` from `te`, cells of `p`. -/
def peer (b : Byte) (te p : Nat) : Env where
  first := .released .high
  edges := (List.range 10).map (fun k => ⟨te + k * p, .driven (frameLevel b k)⟩) ++ [⟨te + 10 * p, .released .high⟩]

/-- That driver with this environment. -/
def hearing (s : State) (e : Env) : State := { s with plat := { s.plat with env := e } }

/-- The outcome is a next state of which this holds. -/
def gives (o : Host.Outcome State Fault Refusal) (p : State → Bool) : Bool :=
  match o with
  | .next t => p t
  | .fault _ => false
  | .refused _ => false

/-- The outcome is this refusal. -/
def refuses (o : Host.Outcome State Fault Refusal) (r : Refusal) : Bool :=
  match o with
  | .next _ => false
  | .fault _ => false
  | .refused q => decide (q = r)

/-- V-B1. -/
theorem test_bind_ok : gives (exec (.bind 4) State.reset) (fun t =>
    decide (t.pin = 4 ∧ t.bound = true ∧ t.phase = .idle ∧ t.dir = .input ∧ t.rspErr = .ok)) = true := by decide
/-- V-B3. -/
theorem test_bind_fail :
    gives (exec (.bind 255) { State.reset with plat := { Platform.reset with pinFail := [255] } }) (fun t =>
      decide (t.phase = .faulted ∧ t.bound = false ∧ t.status = 0b010#3 ∧ t.rspErr.code = 1#2)) = true := by decide
/-- V-C9. -/
theorem test_configure : gives (exec (.configure 57600) ready) (fun t =>
    decide (t.bp = 17 ∧ alignDelay t.bp = 25 ∧ timeout t.bp = 170)) = true := by decide
/-- V-C12, V-C13. -/
theorem test_configure_edge : gives (exec (.configure 333333) ready) (fun t => decide (t.bp = 3)) = true ∧
    gives (exec (.configure 333334) ready) (fun t => decide (t.bp = 2)) = true := by decide
/-- V-W1: accepted at 0. -/
theorem test_write : gives (exec (.write 0x01) ready) (fun t =>
    decide (t.txb = 0x01 ∧ t.phase = .wStart ∧ t.busy = true)) = true := by decide
/-- V-W9. -/
theorem test_write_unconfigured :
    refuses (exec (.write 0x01) { ready with configured := false }) .notConfigured = true := by decide
/-- V-W1, row 0, and the UNMASK of row 104. -/
theorem test_start : gives (exec .start (during .wStart 0)) (fun t =>
    decide (t.trace.reverse = [⟨0, .mask⟩, ⟨0, .setDirection .output⟩, ⟨0, .setLevel .low⟩, ⟨104, .unmask⟩])) = true := by
  decide
/-- V-W1, row 104. -/
theorem test_bitw1 : gives (exec .bitw1 (sending .wBit 104)) (fun t =>
    decide (t.now = 208 ∧ t.trace.reverse =
      [⟨104, .mask⟩, ⟨104, .setDirection .output⟩, ⟨104, .setLevel .high⟩, ⟨104, .unmask⟩])) = true := by decide
/-- V-W1, row 832: the last data cell. -/
theorem test_bitw0 : gives (exec .bitw0 { sending .wBit 832 with idx := 7 }) (fun t =>
    decide (t.now = 936 ∧ t.phase = .wStop ∧ t.idx = 8 ∧ t.trace.reverse =
      [⟨832, .mask⟩, ⟨832, .setLevel .low⟩, ⟨832, .setDirection .output⟩, ⟨832, .unmask⟩])) = true := by decide
/-- V-W1, rows 936 and 1040. -/
theorem test_stop : gives (exec .stop (sending .wStop 936)) (fun t =>
    decide (t.rspValid = true ∧ t.phase = .idle ∧ t.trace.reverse =
      [⟨936, .mask⟩, ⟨936, .setLevel .high⟩, ⟨1040, .setDirection .input⟩, ⟨1040, .setLevel .low⟩, ⟨1040, .unmask⟩])) =
      true := by decide
/-- V-W3: the whole frame of 0xFF returns at 1040. -/
theorem test_frame : gives (exec (.frame 0xFF) { during .wStart 0 with txb := 0xFF }) (fun t =>
    decide (t.now = 1040 ∧ t.dir = .input ∧ t.olat = .low ∧ t.idx = 8 ∧ t.trace.length = 41)) = true := by decide
/-- P2: accepted at 5000. -/
theorem test_read : gives (exec .read { ready with now := 5000, rxb := 0x3C, timedOut := true }) (fun t =>
    decide (t.t0 = 5000 ∧ t.rxb = 0 ∧ t.timedOut = false ∧ t.phase = .rPoll)) = true := by decide
/-- V-R5: at 1040 the level is tested before the timeout. -/
theorem test_poll_start_wins : gives (exec .poll (hearing (during .rPoll 1040) (peer 0x3C 1040 104))) (fun t =>
    decide (t.timedOut = false ∧ t.phase = .rAlign ∧ t.now = 1040)) = true := by decide
/-- V-R6: one microsecond earlier the READ has timed out. -/
theorem test_poll_times_out : gives (exec .poll (hearing (during .rPoll 1040) (peer 0x3C 1041 104))) (fun t =>
    decide (t.timedOut = true ∧ t.phase = .rAlign)) = true := by decide
/-- V-R8: odd `BP`, 25 and not 25.5. -/
theorem test_align : gives (exec .align { during .rAlign 50 with bp := 17 }) (fun t =>
    decide (t.now = 75 ∧ t.phase = .rBit ∧ t.idx = 0)) = true := by decide
/-- V-R1, the BITR at 1156. -/
theorem test_bitr : gives (exec .bitr (hearing (during .rBit 1156) (peer 0xA5 1000 104))) (fun t =>
    decide (t.now = 1260 ∧ t.rxb = 0x01 ∧ t.idx = 1 ∧ t.trace.reverse =
      [⟨1156, .mask⟩, ⟨1156, .setDirection .input⟩, ⟨1156, .sample .high⟩, ⟨1156, .unmask⟩])) = true := by decide
/-- V-R1, the last BITR, at 1884: 0x25 becomes 0xA5, returned at 1988. -/
theorem test_bitr_last :
    gives (exec .bitr (hearing { during .rBit 1884 with rxb := 0x25, idx := 7 } (peer 0xA5 1000 104))) (fun t =>
      decide (t.now = 1988 ∧ t.rspData = 0xA5 ∧ t.rspValid = true ∧ t.phase = .idle)) = true := by decide

/-! ### The word placed is the word run -/

theorem test_first_word_bind : gives (step (State.reset.withFetchWord 40 0x000000004)) (fun t =>
    decide (t.pin = 4 ∧ t.phase = .idle)) = true := by decide
/-- A block that is not bound refuses every other command (RF4). -/
theorem test_first_word_write :
    refuses (step (State.reset.withFetchWord 40 0x200000001)) .notBound = true := by decide
theorem test_first_word_reserved :
    refuses (step (State.reset.withFetchWord 40 0x000000104)) .reservedBits = true := by decide
theorem test_first_word_frame : gives (step ({ ready with phase := .unbound }.withFetchWord 16 0b0101001011)) (fun t =>
    decide (t.now = 1040 ∧ t.txb = 0xA5 ∧ t.phase = .idle)) = true := by decide
theorem test_first_word_cell : gives (step (State.reset.withFetchWord 8 3)) (fun t =>
    decide (t.olat = .high ∧ t.dir = .output ∧ t.idx = 1)) = true := by decide
/-- P6: after a failed BIND a command is refused (RF2). -/
theorem test_faulted_refuses :
    refuses (step { ready with phase := .faulted, cmdValid := true, cmd := 0x100002580 }) .faulted = true := by decide

/-! ### The hypotheses of the statements can be met

`test_meets_<Name>` gives, for `Obligations.<Name>`, states and operands that meet its hypotheses together; a
statement with several clauses has one for each, at the ends of its ranges. -/

/-- A driver that cannot get pins 254 and 255, and pins 7 and 254 of which other drivers own. -/
def choosy : State :=
  { State.reset with plat := { Platform.reset with pinFail := [254, 255], otherPins := [7, 254] } }

/-- R90, R91: the lookup comes first, for a pin that another driver owns as well. -/
theorem test_bind_lookup_first : gives (exec (.bind 254) choosy) (fun t =>
    decide (t.phase = .faulted ∧ t.cfgf = true ∧ t.bound = false)) = true ∧
    refuses (exec (.bind 7) choosy) .pinShared = true := by decide

/-- `BP = 1`, the shortest bit-period. -/
def quick : State := { ready with bp := 1 }

/-- A command at the port of that driver. -/
def issuing (s : State) (i : Instr) : State :=
  match encode i with
  | .cmd w => { s with cmdValid := true, cmd := w }
  | .wire _ => s
  | .cell _ _ => s

/-- The wire is held at this level for ever. -/
def holding (s : State) (l : Level) : State := hearing s { first := .released l, edges := [] }

theorem test_meets_BindTakesThePin : choosy.phase = .unbound ∧ choosy.bound = false ∧
    (0 : PinId) ∉ choosy.plat.otherPins ∧ (0 : PinId) ∉ choosy.plat.pinFail ∧
    (253 : PinId) ∉ choosy.plat.otherPins ∧ (253 : PinId) ∉ choosy.plat.pinFail := by decide
theorem test_meets_BindFailureIsFatal : choosy.phase = .unbound ∧ choosy.bound = false ∧
    (255 : PinId) ∉ choosy.plat.otherPins ∧ (255 : PinId) ∈ choosy.plat.pinFail ∧
    (254 : PinId) ∈ choosy.plat.otherPins ∧ (254 : PinId) ∈ choosy.plat.pinFail := by decide
theorem test_meets_ConfigureStoresTheQuotient : ready.phase = .idle ∧ ready.bound = true ∧
    1 ≤ (1 : Word32).toNat ∧ (1 : Word32).toNat ≤ 999999 ∧
    1 ≤ (999999 : Word32).toNat ∧ (999999 : Word32).toNat ≤ 999999 := by decide
theorem test_meets_BitPeriodBracketsTheBaud : (1 : Word32).toNat ≤ (999999 : Word32).toNat ∧
    ∃ t u, exec (.configure 999999) ready = .next t ∧ exec (.configure 1) ready = .next u :=
  ⟨by decide, _, _, rfl, rfl⟩
theorem test_meets_DerivedDurationsAreExact : (1000000 : Word32).toNat ≤ 1000000 ∧ (0 : Word32).toNat ≤ 1000000 := by
  decide
theorem test_meets_IssuesOutside_reserved :
    ([0x000000100#34, 0x080000000#34, 0x200000100#34, 0x280000000#34].all fun w => decide
      ((cmdOp w = 0#2 ∨ cmdOp w = 2#2) ∧ argReserved (cmdArg w) ≠ 0)) = true ∧
    ([0x300000001#34, 0x380000000#34].all fun w => decide (cmdOp w = 3#2 ∧ cmdArg w ≠ 0)) = true ∧
    ready.resetDue = false ∧ ready.cmdReady = true ∧ (issuing ready .read).cmdValid = true ∧
    ready.cmdValid = false ∧ (0 : Time).toNat ≤ { ready with program := [⟨0, 0x300000001⟩] }.now.toNat := by decide
theorem test_meets_IssuesOutside_others :
    (0 : Word32).toNat = 0 ∧ 999999 < (1000000 : Word32).toNat ∧ ready.bound = true ∧ State.reset.bound = false ∧
    { ready with configured := false }.configured = false ∧ (during .wBit 0).busy = true ∧
    { ready with phase := .faulted }.phase = .faulted := by decide
theorem test_meets_RefusalsAnswerByName : ready.phase = .idle ∧ ready.bound = true ∧ choosy.phase = .unbound ∧
    choosy.bound = false ∧ { ready with configured := false }.configured = false ∧
    1000000 ≤ (1000000 : Word32).toNat ∧ 1000000 ≤ (0xFFFFFFFF : Word32).toNat ∧
    (7 : PinId) ∈ choosy.plat.otherPins ∧ (7 : PinId) ∉ choosy.plat.pinFail := by decide
theorem test_meets_WriteIsAccepted :
    ready.phase = .idle ∧ ready.bound = true ∧ ready.configured = true := by decide
theorem test_meets_StartCellEffect : (during .wStart 0).phase = .wStart ∧ (during .wStart 0).rstAt = [] ∧
    (during .wStart 0).WireFree (during .wStart 0).bp.toNat := ⟨rfl, rfl, by unfold State.WireFree; decide⟩
theorem test_meets_HighCellEffect : (sending .wBit 0).phase = .wBit ∧ (sending .wBit 0).rstAt = [] ∧
    (sending .wBit 0).WireFree ((sending .wBit 0).bp.toNat + (sending .wBit 0).plat.jOpen) :=
  ⟨rfl, rfl, by unfold State.WireFree; decide⟩
/-- Bit 7, with preemption: the wire is free until the longest hold is over, and driven at the next microsecond. -/
theorem test_meets_LowCellEffect : ∃ s : State, s.phase = .wBit ∧ s.idx = 7 ∧ s.rstAt = [] ∧ s.plat.jOpen = 10 ∧
    s.WireFree (s.bp.toNat + s.plat.jOpen) ∧ ¬s.WireFree (s.bp.toNat + s.plat.jOpen + 1) :=
  ⟨{ sending .wBit 0 with idx := 7, plat := { Platform.reset with jOpen := 10, env := peer 0 114 104 } },
    rfl, rfl, rfl, rfl, by unfold State.WireFree; decide, by unfold State.WireFree; decide⟩
theorem test_meets_StopCellEffect : (sending .wStop 936).phase = .wStop ∧ (sending .wStop 936).rstAt = [] ∧
    (sending .wStop 936).WireFree (sending .wStop 936).bp.toNat := ⟨rfl, rfl, by unfold State.WireFree; decide⟩
/-- Driven at the last microsecond of the cell, in each of the three positions. -/
theorem test_meets_ContentionIsRefused : ∀ p ∈ [Phase.wStart, .wBit, .wStop],
    (hearing (sending p 0) (peer 0 103 104)).rstAt = [] ∧ 103 < 0 + (sending p 0).bp.toNat ∧
    ((hearing (sending p 0) (peer 0 103 104)).plat.env.at 103).drives = true ∧
    (hearing (sending p 0) (peer 0 103 104)).dir = .output ∧ (sending p 0).phase = p := by decide
theorem test_meets_FrameCompletes : (during .wStart 0).phase = .wStart ∧ (during .wStart 0).NoReset ∧
    (during .wStart 0).ClockFits 1040 ∧ (during .wStart 0).WireFree 1040 :=
  ⟨rfl, ⟨rfl, rfl⟩, by unfold State.ClockFits; decide, by unfold State.WireFree; decide⟩
theorem test_meets_FrameIsItsTenCells : (during .wStart 0).phase = .wStart ∧ (during .wStart 0).Undisturbed ∧
    (during .wStart 0).rspValid = false ∧ (during .wStart 0).wholeFrame = false := ⟨rfl, ⟨⟨rfl, rfl⟩, rfl⟩, rfl, rfl⟩
/-- For `WriteRunsItsTenCells`, `WriteWaveform` and `WriteMasksStartAndStop`; `rfl` shows the word of the byte. -/
theorem test_meets_WriteRunsItsTenCells : ∃ s : State, s.phase = .idle ∧ s.bound = true ∧ s.configured = true ∧
    s.NoReset ∧ s.cmdValid = true ∧ Code.cmd s.cmd = encode (.write 0xA5) ∧ s.wholeFrame = false ∧ s.Ideal ∧
    s.im = false ∧ 1 ≤ s.bp.toNat ∧ s.ClockFits (10 * s.bp.toNat + 8 * s.plat.jOpen) ∧
    s.WireFree (10 * s.bp.toNat + 8 * s.plat.jOpen) :=
  ⟨issuing ready (.write 0xA5), rfl, rfl, rfl, ⟨rfl, rfl⟩, rfl, rfl, rfl, rfl, rfl, by decide,
    by unfold State.ClockFits; decide, by unfold State.WireFree; decide⟩
theorem test_meets_WriteWaveform : ∃ s : State, Code.cmd s.cmd = encode (.write 0) ∧ s.cmdValid = true ∧
    s.phase = .idle ∧ s.bound = true ∧ s.configured = true ∧ s.NoReset ∧ s.wholeFrame = false ∧ s.Ideal ∧
    s.olat = .high ∧ s.bp = 1 ∧ s.ClockFits (10 * s.bp.toNat) ∧ s.WireFree (10 * s.bp.toNat) :=
  ⟨issuing { quick with olat := .high } (.write 0), rfl, rfl, rfl, rfl, rfl, ⟨rfl, rfl⟩, rfl, rfl, rfl, rfl,
    by unfold State.ClockFits; decide, by unfold State.WireFree; decide⟩
theorem test_meets_WriteMasksStartAndStop : ∃ s : State, Code.cmd s.cmd = encode (.write 0xFF) ∧
    s.cmdValid = true ∧ s.phase = .idle ∧ s.bound = true ∧ s.configured = true ∧ s.NoReset ∧
    s.wholeFrame = false ∧ s.Ideal ∧ s.im = false ∧ s.bp.toNat = 1000000 ∧ s.ClockFits (10 * s.bp.toNat) ∧
    s.WireFree (10 * s.bp.toNat) :=
  ⟨issuing { ready with bp := 1000000 } (.write 0xFF), rfl, rfl, rfl, rfl, rfl, ⟨rfl, rfl⟩, rfl, rfl, rfl, rfl,
    by unfold State.ClockFits; decide, by unfold State.WireFree; decide⟩
theorem test_meets_ReadIsAccepted : ready.phase = .idle ∧ ready.bound = true ∧ ready.configured = true := by decide
/-- Start, timeout exactly reached, and one microsecond before it. -/
theorem test_meets_PollTurnEffect : ([(1040 : Time), 1039].all fun t => decide (
    (during .rPoll t).phase = .rPoll ∧ (during .rPoll t).dir = .input ∧ (during .rPoll t).rstAt = [] ∧
    (holding (during .rPoll t) .low).plat.env.levelAt t.toNat = .low ∧
    (holding (during .rPoll t) .high).plat.env.levelAt t.toNat = .high ∧
    ((timeout (during .rPoll t).bp).toNat ≤ (t - (during .rPoll t).t0).toNat ↔ t = 1040))) = true := by decide
theorem test_meets_AlignEffect : (during .rAlign 50).phase = .rAlign ∧ (during .rAlign 50).dir = .input ∧
    (during .rAlign 50).im = false ∧ (during .rAlign 50).rstAt = [] := by decide
theorem test_meets_SampleCellEffect : ([(0 : BitVec 4), 7].all fun i => decide
    ({ during .rBit 0 with idx := i }.phase = .rBit ∧ { during .rBit 0 with idx := i }.rstAt = [])) = true := by decide
theorem test_meets_StartDetectionEnds : (during .rPoll 5).phase = .rPoll ∧ (during .rPoll 5).Undisturbed ∧
    (during .rPoll 5).dir = .input ∧ (during .rPoll 5).timedOut = false ∧ (during .rPoll 5).bp.toNat ≤ 1000000 ∧
    (during .rPoll 5).t0.toNat ≤ (during .rPoll 5).now.toNat ∧ (during .rPoll 5).ClockFits 1041 :=
  ⟨rfl, ⟨⟨rfl, rfl⟩, rfl⟩, rfl, rfl, by decide, by decide, by unfold State.ClockFits; decide⟩
theorem test_meets_SamplesAreOneBitPeriodApart : (during .rAlign 5).phase = .rAlign ∧ (during .rAlign 5).Undisturbed ∧
    (during .rAlign 5).Ideal ∧ (during .rAlign 5).dir = .input ∧ (during .rAlign 5).im = false ∧
    (during .rAlign 5).rxb = 0 ∧ (during .rAlign 5).bp.toNat ≤ 1000000 ∧ (during .rAlign 5).ClockFits 1040 :=
  ⟨rfl, ⟨⟨rfl, rfl⟩, rfl⟩, rfl, rfl, rfl, rfl, by decide, by unfold State.ClockFits; decide⟩
theorem test_meets_ReadOfAHighWireTimesOut : ∃ s : State, s.phase = .idle ∧ s.bound = true ∧ s.configured = true ∧
    s.NoReset ∧ s.cmdValid = true ∧ Code.cmd s.cmd = encode .read ∧ s.Ideal ∧ s.dir = .input ∧ s.im = false ∧
    s.bp.toNat = 104 ∧ s.ClockFits (20 * s.bp.toNat) ∧
    s.plat.env.Holds .high s.now.toNat (s.now.toNat + 20 * s.bp.toNat + 1) :=
  ⟨issuing ready .read, rfl, rfl, rfl, ⟨rfl, rfl⟩, rfl, rfl, rfl, rfl, rfl, rfl, by unfold State.ClockFits; decide,
    fun _ _ _ => rfl⟩
theorem test_meets_ReadOfALowWireAnswersZero : ∃ s : State, s.phase = .idle ∧ s.bound = true ∧ s.configured = true ∧
    s.NoReset ∧ s.cmdValid = true ∧ Code.cmd s.cmd = encode .read ∧ s.Ideal ∧ s.dir = .input ∧ s.im = false ∧
    s.bp.toNat = 104 ∧ s.ClockFits (10 * s.bp.toNat) ∧
    s.plat.env.Holds .low s.now.toNat (s.now.toNat + 10 * s.bp.toNat + 1) :=
  ⟨holding (issuing ready .read) .low, rfl, rfl, rfl, ⟨rfl, rfl⟩, rfl, rfl, rfl, rfl, rfl, rfl,
    by unfold State.ClockFits; decide, fun _ _ _ => rfl⟩
/-- The start edge at the last instant of the window, as in V-R5. -/
theorem test_meets_PeerFrameIsReceived : ∃ s : State, s.phase = .idle ∧ s.bound = true ∧ s.configured = true ∧
    s.NoReset ∧ s.cmdValid = true ∧ Code.cmd s.cmd = encode .read ∧ s.Ideal ∧ s.dir = .input ∧ s.im = false ∧
    s.bp.toNat = 1 ∧ 10 = s.now.toNat + 10 * s.bp.toNat ∧ s.ClockFits (20 * s.bp.toNat) ∧
    s.plat.env.Holds .high s.now.toNat 10 ∧ s.plat.env.Sends 0x3C 10 s.bp.toNat :=
  ⟨hearing (issuing quick .read) (peer 0x3C 10 1), rfl, rfl, rfl, ⟨rfl, rfl⟩, rfl, rfl, rfl, rfl, rfl, rfl, rfl,
    by unfold State.ClockFits; decide, by unfold Env.Holds; decide, by unfold Env.Sends; decide⟩
/-- `BP = 3`, seen one microsecond late. -/
theorem test_meets_PreemptedReadWithinBudget : ∃ s : State, s.phase = .rAlign ∧ s.Undisturbed ∧ s.dir = .input ∧
    s.im = false ∧ s.rxb = 0 ∧ s.bp.toNat = 3 ∧ 4 ≤ s.now.toNat ∧
    (s.now.toNat - 4) + s.bp.toNat / 2 + 8 * s.plat.jOpen < s.bp.toNat ∧
    s.ClockFits (10 * s.bp.toNat + 9 * s.plat.jOpen) ∧ s.plat.env.Sends 0xA5 4 s.bp.toNat :=
  ⟨hearing { during .rAlign 5 with bp := 3 } (peer 0xA5 4 3), rfl, ⟨⟨rfl, rfl⟩, rfl⟩, rfl, rfl, rfl, rfl, by decide,
    by decide, by unfold State.ClockFits; decide, by unfold Env.Sends; decide⟩
/-- The same with extra times: `BP = 20`, `J_OPEN = 1`, seen one microsecond late. -/
theorem test_meets_PreemptedReadWithinBudget_extra : ∃ s : State, s.phase = .rAlign ∧ s.plat.jOpen = 1 ∧
    (s.now.toNat - 4) + s.bp.toNat / 2 + 8 * s.plat.jOpen < s.bp.toNat ∧ s.plat.env.Sends 0xA5 4 s.bp.toNat :=
  ⟨{ during .rAlign 5 with bp := 20, plat := { Platform.reset with jOpen := 1, env := peer 0xA5 4 20 } }, rfl, rfl,
    by decide, by unfold Env.Sends; decide +kernel⟩
/-- Driver A of P4, at the last instant B waits for, and driver B, whose environment is the wire A makes. -/
theorem test_meets_RoundTripOfTwoDrivers : ∃ a b : State,
    (a.phase = .idle ∧ a.bound = true ∧ a.configured = true ∧ a.NoReset ∧ a.cmdValid = true ∧
      Code.cmd a.cmd = encode (.write 0x5A) ∧ a.wholeFrame = false ∧ a.Ideal ∧ a.ClockFits (10 * a.bp.toNat) ∧
      a.WireFree (10 * a.bp.toNat)) ∧
    (b.phase = .idle ∧ b.bound = true ∧ b.configured = true ∧ b.NoReset ∧ b.cmdValid = true ∧
      Code.cmd b.cmd = encode .read ∧ b.Ideal ∧ b.dir = .input ∧ b.im = false ∧ b.bp = a.bp ∧ a.bp = 1 ∧
      b.ClockFits (20 * a.bp.toNat) ∧ a.now.toNat = b.now.toNat + 10 * a.bp.toNat) ∧
    b.plat.env.Holds .high b.now.toNat a.now.toNat ∧
    gives (steps 11 a) (fun a' => (List.range 10).all fun k => decide
      (b.plat.env.levelAt (10 + k) = wireAt a.plat.env (a.dir, a.olat) a'.trace (10 + k))) = true :=
  ⟨issuing { quick with now := 10 } (.write 0x5A), hearing (issuing quick .read) (peer 0x5A 10 1),
    ⟨rfl, rfl, rfl, ⟨rfl, rfl⟩, rfl, rfl, rfl, rfl, by unfold State.ClockFits; decide, by unfold State.WireFree; decide⟩,
    ⟨rfl, rfl, rfl, ⟨rfl, rfl⟩, rfl, rfl, rfl, rfl, rfl, rfl, rfl, by unfold State.ClockFits; decide, rfl⟩,
    by unfold Env.Holds; decide, by decide⟩
theorem test_meets_ReadNeverDrives : ready.rstAt = [] ∧
    (∃ t, exec .read ready = .next t) ∧ (∃ t, exec .poll (during .rPoll 0) = .next t) ∧
    (∃ t, exec .align (during .rAlign 0) = .next t) ∧ ∃ t, exec .bitr (during .rBit 0) = .next t :=
  ⟨rfl, ⟨_, rfl⟩, ⟨_, rfl⟩, ⟨_, rfl⟩, ⟨_, rfl⟩⟩
/-- In the middle of a WRITE. -/
theorem test_meets_EveryStepKeepsSoundness : Sound (sending .wBit 104) ∧ ∃ t, step (sending .wBit 104) = .next t := by
  refine ⟨?_, _, rfl⟩
  constructor <;> decide
theorem test_meets_CriticalSectionsNeverNest : (during .wStart 0).im = false ∧
    (∃ t, exec .start (during .wStart 0) = .next t) ∧ ∃ t, exec .bitr (during .rBit 0) = .next t :=
  ⟨rfl, ⟨_, rfl⟩, ⟨_, rfl⟩⟩
theorem test_meets_ParametersAreNeverWritten : ∃ t, step (sending .wStop 936) = .next t := ⟨_, rfl⟩
theorem test_meets_PinIsWrittenOnceByBind : (State.reset.rst = none ∧ State.reset.rstAt = []) ∧
    gives (exec (.bind 4) State.reset) (fun t => decide (t.pin ≠ State.reset.pin ∧ t.bound ≠ State.reset.bound)) =
      true := by decide
/-- Each of the registers is written by a writer of its own. -/
theorem test_meets_RegistersHaveTheirWriters : (ready.rst = none ∧ ready.rstAt = []) ∧
    gives (exec (.configure 1) ready) (fun t => decide (t.bp ≠ ready.bp)) = true ∧
    gives (exec (.bind 255) choosy) (fun t => decide (t.cfgf ≠ choosy.cfgf ∧ t.rspErr ≠ choosy.rspErr)) = true ∧
    gives (exec .poll (during .rPoll 1040)) (fun t => decide (t.timedOut ≠ false)) = true ∧
    gives (exec .bitr (during .rBit 0)) (fun t => decide (t.rxb ≠ 0 ∧ t.idx ≠ 0 ∧ t.now ≠ 0)) = true ∧
    gives (exec .read { ready with now := 1 }) (fun t => decide (t.t0 ≠ ready.t0)) = true ∧
    gives (exec (.write 1) ready) (fun t => decide (t.txb ≠ ready.txb)) = true ∧
    gives (exec .start { during .wStart 0 with olat := .high, im := true, idx := 8 }) (fun t =>
      decide (t.dir ≠ .input ∧ t.olat ≠ .high ∧ t.im ≠ true ∧ t.idx ≠ 8)) = true := by decide
theorem test_meets_ClockNeverGoesBack : (sending .wBit 104).ClockFits (10 * (2 ^ 32 + 0)) ∧
    ∃ t, step (sending .wBit 104) = .next t := ⟨by unfold State.ClockFits; decide, _, rfl⟩
/-- A faulted block, and the four things a step of it can meet: a reset, a command at the port, the head of the
program at the first microsecond it is due, and nothing, the head being due one microsecond later. -/
theorem test_meets_OnlyResetLeavesFaulted : ∃ s : State, s.phase = .faulted ∧ s.resetDue = false ∧ s.NothingPresented ∧
    { s with rstAt := [⟨0, 1⟩] }.resetDue = true ∧ { s with rst := some 9 }.resetDue = true ∧
    ({ s with rstAt := [⟨1, 1⟩] }.resetDue = false ∧ { s with rstAt := [⟨1, 1⟩] }.rstAt ≠ []) ∧
    (issuing s .read).cmdValid = true ∧ { s with program := [⟨0, 0⟩] }.resetDue = false ∧
    { s with program := [⟨1, 0⟩] }.NothingPresented ∧ ∃ t, step { s with rstAt := [⟨0, 1⟩] } = .next t :=
  ⟨{ ready with phase := .faulted }, rfl, rfl, ⟨rfl, by simp [ready, State.reset]⟩, rfl, rfl, by decide, rfl, rfl,
    ⟨rfl, by rintro _ _ ⟨⟩; decide⟩, _, rfl⟩
/-- An assertion that is due, one at the first and one at the last microsecond of each hold, and one in the middle of
a frame run whole. -/
theorem test_meets_ResetAbandonsAnything : ([(5 : Time), 108].all fun r => decide (
    { sending .wBit 5 with rstAt := [⟨r, 200⟩] }.now.toNat ≤ r.toNat ∧
    r.toNat < { sending .wBit 5 with rstAt := [⟨r, 200⟩] }.now.toNat + 104 ∧
    ({ sending .wBit 5 with rstAt := [⟨r, 200⟩] }.resetDue = true ↔ r = 5) ∧
    r.toNat < (during .rAlign 5).now.toNat + (alignDelay 104).toNat ∧ (during .rAlign 5).dir = .input ∧
    (sending .wBit 5).plat.env.drivenIn 5 (5 + 104) = false)) = true ∧
    gives (exec (.frame 0xFF) { during .wStart 0 with txb := 0xFF, rstAt := [] }) (fun u =>
      decide (500 < u.now.toNat)) = true := by decide
/-- The clause about every instruction, where the time passes for an open number of microseconds: a POLL turn with
preemption, cut or not according to the draw. -/
theorem test_meets_ResetAbandonsAnything_extra : ∃ s : State, s.rst = none ∧ s.rstAt = [⟨0, 3⟩] ∧ s.plat.jOpen = 10 ∧
    s.now.toNat ≤ (0 : Time).toNat ∧ ∃ u, exec .poll { s with rstAt := [] } = .next u :=
  ⟨{ during .rPoll 0 with rstAt := [⟨0, 3⟩], plat := { Platform.reset with jOpen := 10 } }, rfl, rfl, rfl,
    by decide, _, rfl⟩
theorem test_meets_IdleChangesOnlyTheClock :
    (∀ s ∈ [State.reset, ready], (s.phase = .unbound ∨ s.phase = .idle) ∧ s.resetDue = false) ∧
    ready.NothingPresented ∧ { ready with program := [⟨1, 0⟩] }.NothingPresented :=
  ⟨by decide, ⟨rfl, by simp [ready, State.reset]⟩, rfl, by rintro _ _ ⟨⟩; decide⟩
/-- Asserted before the step, by the step, and released by it. -/
theorem test_meets_BlockIsAsAfterResetWhileAsserted :
    gives (step { State.reset with rst := some 9 }) (fun t => t.rst.isSome) = true ∧
    gives (step { sending .wBit 5 with rstAt := [⟨60, 99⟩] }) (fun t => t.rst.isSome && decide (t.now = 60)) = true ∧
    gives (step { State.reset with rst := some 0 }) (fun t => t.rst.isNone) = true := by decide
/-- A BIND that stands at the port while `rst` is asserted is accepted after the release and no sooner
(spec/70_reset_and_hazards.md R190, R191). -/
theorem test_meets_AssertedResetLastsUntilItsRelease :
    gives (steps 3 (issuing { State.reset with rst := some 2 } (.bind 4))) (fun t =>
      decide (t.now = 2 ∧ t.rst = none ∧ t.bound = false ∧ t.cmdValid = true)) = true ∧
    gives (steps 4 (issuing { State.reset with rst := some 2 } (.bind 4))) (fun t =>
      decide (t.now = 2 ∧ t.bound = true ∧ t.pin = 4)) = true := by decide
/-- A command at the port, the head of the caller's program, and a cell of a WRITE. -/
theorem test_meets_StepRunsTheDecodedInstruction :
    (ready.resetDue = false ∧ ready.cmdReady = true ∧ (issuing ready .read).cmdValid = true ∧
      decode (.cmd (issuing ready .read).cmd) = .ok .read) ∧
    (ready.cmdValid = false ∧ (5 : Time).toNat ≤ { ready with now := 5 }.now.toNat ∧
      decode (.cmd 0x200000001#34) = .ok (.write 1)) ∧
    ((sending .wBit 5).selected = some (.cell .txData .low) ∧ decode (.cell .txData .low) = .ok .bitw0) := by decide
theorem test_meets_PositionSelectsTheMicroOperation :
    ∀ p ∈ [Phase.wStart, .wBit, .wStop, .rPoll, .rAlign, .rBit], (during p 0).busy = true := by decide
theorem test_meets_OverlappingCommandIsRefused : (during .rPoll 0).busy = true ∧
    (issuing (during .rPoll 0) (.write 1)).cmdValid = true ∧ (during .rPoll 0).resetDue = false := by decide
theorem test_meets_MicroOperationsAreNotCallable : ready.phase ≠ .wStart ∧ ready.txb ≠ 1 ∧
    ∃ i, decode (.cmd 0x300000000#34) = .ok i := ⟨by decide, by decide, _, rfl⟩
theorem test_meets_PinRegisterSpace : ∃ t, ready.memWrite .olat true = .ok t ∧ PinReg.dir ≠ .pinlvl ∧
    t.memRead .olat = true := ⟨_, rfl, by decide, rfl⟩
theorem test_meets_LineFollowsTheDriverOrTheEnvironment : (sending .wBit 0).dir = .output ∧
    ((sending .wBit 0).plat.env.at 0).drives = false ∧ ready.dir = .input := by decide
theorem test_meets_DelayLastsItsTime : ready.rstAt = [] ∧ ready.WireFree (104 + ready.plat.jOpen) :=
  ⟨rfl, by unfold State.WireFree; decide⟩
theorem test_meets_DecodeAndEncodeAgree : (∃ i, decode (.cmd 0x3FFFFFFFF#34) = .error i) ∧
    (∃ i, decode (.cmd 0x1FFFFFFFF#34) = .ok i) ∧ ∃ i, decode (.wire 0b0111111111#10) = .ok i :=
  ⟨⟨_, rfl⟩, ⟨_, rfl⟩, ⟨_, rfl⟩⟩

end Sys2Proof.Tests
end

section
/-! PROOFS. A READ that nothing disturbs: what one turn of POLL, ALIGN and BITR do, start detection on a wire that
stays High, the eight samples, and with them the READs of a wire that never changes its level. -/

namespace Sys2Proof.Machine

/-! ### Operands -/

theorem alignDelay_toNat {bp : Word32} (h : bp.toNat ≤ 1000000) :
    (alignDelay bp).toNat = bp.toNat + bp.toNat / 2 := by
  simp only [alignDelay, BitVec.toNat_add, BitVec.toNat_udiv, BitVec.toNat_ofNat, Nat.reducePow, Nat.reduceMod]
  omega

theorem timeout_toNat {bp : Word32} (h : bp.toNat ≤ 1000000) : (timeout bp).toNat = 10 * bp.toNat := by
  simp only [timeout, Config.timeoutFactor, BitVec.toNat_mul, BitVec.toNat_ofNat]
  omega

/-- Inserting a sample ORs it into its own place and leaves every other bit. -/
theorem rxInsert_getLsbD (byte : Byte) (v : Level) (idx : BitVec 4) {j : Nat} (hj : j < 8) :
    (rxInsert byte v idx).getLsbD j = (byte.getLsbD j || (decide (j = idx.toNat) && v.bit)) := by
  rcases lt_trichotomy j idx.toNat with h | h | h
  · simp [rxInsert, h, h.ne]
  · simp [rxInsert, ← h, hj]
  · have hpos : j - idx.toNat ≠ 0 := by omega
    simp [rxInsert, hj, h.ne', h.not_gt, BitVec.getLsbD_ofBool, hpos]

/-! ### One turn, one alignment, one sample -/

theorem State.readLevel_input {s : State} (hd : s.dir = .input) :
    s.readLevel = s.plat.env.levelAt s.now.toNat := by
  simp [State.readLevel, State.line, hd, wireLevel_input]

@[simp] theorem State.readLevel_setDirection_input (s : State) :
    (s.setDirection .input).readLevel = s.plat.env.levelAt s.now.toNat := State.readLevel_input rfl

theorem State.pollExpired_iff {s : State} (hbp : s.bp.toNat ≤ 1000000) (ht : s.t0.toNat ≤ s.now.toNat) :
    s.pollExpired = true ↔ s.t0.toNat + 10 * s.bp.toNat ≤ s.now.toNat := by
  rw [State.pollExpired, decide_eq_true_eq, timeout_toNat hbp, BitVec.toNat_sub_of_le (BitVec.le_def.mpr ht)]
  omega

/-- A start edge is detected whatever the time. -/
theorem State.pollTurn_low {s : State} (hl : s.readLevel = .low) :
    s.pollTurn = .next { s.sampled with phase := .rAlign } := by simp only [State.pollTurn, hl]

theorem State.pollTurn_expired {s : State} (hl : s.readLevel = .high) (hx : s.pollExpired = true) :
    s.pollTurn = .next { s.sampled with timedOut := true, phase := .rAlign } := by
  simp only [State.pollTurn, hl, if_pos hx]

theorem State.pollTurn_waits {s : State} (hr : s.rstAt = []) (hd : s.dir = .input) (hl : s.readLevel = .high)
    (hx : s.pollExpired = false) : s.pollTurn = .next (s.sampled.countDraw.advance (s.waitTime 1)) := by
  have hwait : s.sampled.delay Config.pollStep = .done (s.sampled.countDraw.advance (s.waitTime 1)) :=
    State.delay_input hr hd
  simp [State.pollTurn, hl, hx, hwait, Held.andThen]

theorem State.alignCell_runs {s : State} (hr : s.rstAt = []) (hd : s.dir = .input) :
    s.alignCell = .next ((s.countDraw.advance (s.waitTime (alignDelay s.bp).toNat)).enterData .rBit) := by
  rw [State.alignCell, State.delay_input hr hd]
  rfl

/-- BITR: the hold is outside the critical section. -/
theorem State.sampleCell_runs {s : State} (hr : s.rstAt = []) :
    s.sampleCell = .next (((s.mask.setDirection .input).sampled.unmask.countDraw.advance
      (s.unmask.waitTime s.bp.toNat)).afterRxBit (s.plat.env.levelAt s.now.toNat)) := by
  have hwait : (s.mask.setDirection .input).sampled.unmask.delay s.bp.toNat =
      .done ((s.mask.setDirection .input).sampled.unmask.countDraw.advance (s.unmask.waitTime s.bp.toNat)) :=
    State.delay_input hr rfl
  simp [State.sampleCell, hwait, Held.andThen]

theorem State.waitTime_ideal {s : State} (h : s.Ideal) (d : Nat) : s.waitTime d = d := by
  have hle := s.waitTime_le d
  rw [h] at hle
  exact le_antisymm hle (s.le_waitTime d)

/-! ### Steps of a READ that nothing disturbs -/

theorem State.Undisturbed.resetDue {s : State} (h : s.Undisturbed) : s.resetDue = false :=
  State.resetDue_none h.1.1 h.1.2

theorem State.Undisturbed.rstAt {s : State} (h : s.Undisturbed) : s.rstAt = [] := h.1.2

theorem step_rPoll {s : State} (hu : s.Undisturbed) (hp : s.phase = .rPoll) : step s = s.endPulse.pollTurn := by
  rw [step_transfer (i := .poll) hu.resetDue hu.2 (by simp [State.current, hp])]
  exact State.inPhase_run State.pollTurn hp

theorem step_rAlign {s : State} (hu : s.Undisturbed) (hp : s.phase = .rAlign) : step s = s.endPulse.alignCell := by
  rw [step_transfer (i := .align) hu.resetDue hu.2 (by simp [State.current, hp])]
  exact State.inPhase_run State.alignCell hp

theorem step_rBit {s : State} (hu : s.Undisturbed) (hp : s.phase = .rBit) : step s = s.endPulse.sampleCell := by
  rw [step_transfer (i := .bitr) hu.resetDue hu.2 (by simp [State.current, hp])]
  exact State.inPhase_run State.sampleCell hp

/-- The state in which a READ presented at the port begins to poll. -/
def State.readBegun (s : State) : State :=
  { s with cmdValid := false, rspValid := false, rxb := 0, timedOut := false, t0 := s.now, phase := .rPoll }

/-- A READ at the port of an idle configured driver is accepted (spec/42_receive.md R120). -/
theorem step_read {s : State} (hp : s.phase = .idle) (hb : s.bound = true) (hc : s.configured = true)
    (hr : s.NoReset) (hv : s.cmdValid = true) (hcmd : Code.cmd s.cmd = encode .read) :
    step s = .next s.readBegun := by
  have hready : s.cmdReady = true := by simp [State.cmdReady, State.busy, hp, Phase.inTransfer]
  have hdecode : decode (.cmd s.cmd) = .ok .read := by rw [hcmd]; decide
  rw [step_command (State.resetDue_none hr.1 hr.2) hready hv hdecode]
  have hgate : { s with cmdValid := false, rspValid := false }.noTransfer = none :=
    State.noTransfer_none.mpr ⟨hb, hp, hc⟩
  simp only [exec, execRead, hgate, State.readBegun]

/-! ### Runs with ideal timing -/

/-- A clock that fits fits for the rest of the time at a later instant. -/
theorem State.ClockFits_later {s t : State} {n d m : Nat} (h : s.ClockFits n) (hn : t.now.toNat = s.now.toNat + d)
    (hm : d + m ≤ n) : t.ClockFits m := by
  unfold State.ClockFits at *
  omega

theorem Env.Holds_mono {env : Env} {l : Level} {lo hi lo' hi' : Nat} (h : env.Holds l lo hi) (hlo : lo ≤ lo')
    (hhi : hi' ≤ hi) : env.Holds l lo' hi' := fun t h₁ h₂ => h t (le_trans hlo h₁) (lt_of_lt_of_le h₂ hhi)

/-- The premises every part of a READ shares: nothing disturbs it, timing is ideal, and the pin is an input. -/
structure State.Listens (s : State) : Prop where
  undisturbed : s.Undisturbed
  ideal : s.Ideal
  input : s.dir = .input

/-- A start edge is detected whatever the time (spec/42_receive.md R121). -/
theorem step_poll_low {s : State} (hs : s.Listens) (hp : s.phase = .rPoll) (hq : s.rspValid = false)
    (hl : s.plat.env.levelAt s.now.toNat = .low) : step s = .next { s.sampled with phase := .rAlign } := by
  rw [step_rPoll hs.undisturbed hp, State.endPulse_id hq,
    State.pollTurn_low ((State.readLevel_input hs.input).trans hl)]

/-- A wire still High at the timeout ends start detection with `TO` set (spec/42_receive.md R121, R123). -/
theorem step_poll_expired {s : State} (hs : s.Listens) (hp : s.phase = .rPoll) (hq : s.rspValid = false)
    (hbp : s.bp.toNat ≤ 1000000) (hl : s.plat.env.levelAt s.now.toNat = .high)
    (ht : s.t0.toNat + 10 * s.bp.toNat ≤ s.now.toNat) :
    step s = .next { s.sampled with timedOut := true, phase := .rAlign } := by
  rw [step_rPoll hs.undisturbed hp, State.endPulse_id hq,
    State.pollTurn_expired ((State.readLevel_input hs.input).trans hl)
      ((State.pollExpired_iff hbp (by omega)).mpr ht)]

/-- A wire that is High before the timeout costs one microsecond (spec/42_receive.md R121). -/
theorem step_poll_waits {s : State} (hs : s.Listens) (hp : s.phase = .rPoll) (hq : s.rspValid = false)
    (hbp : s.bp.toNat ≤ 1000000) (hl : s.plat.env.levelAt s.now.toNat = .high) (ht : s.t0.toNat ≤ s.now.toNat)
    (hn : s.now.toNat < s.t0.toNat + 10 * s.bp.toNat) : step s = .next (s.sampled.countDraw.advance 1) := by
  have hearly : s.pollExpired = false := by
    rw [Bool.eq_false_iff, Ne, State.pollExpired_iff hbp ht]
    omega
  rw [step_rPoll hs.undisturbed hp, State.endPulse_id hq,
    State.pollTurn_waits hs.undisturbed.rstAt hs.input ((State.readLevel_input hs.input).trans hl) hearly,
    State.waitTime_ideal hs.ideal]

/-- The state in which a READ has polled for `n` microseconds. -/
def State.polled (s : State) (n : Nat) (draws : Nat) (trace : List PinEvent) : State :=
  { s with now := s.now + BitVec.ofNat 64 n, draws := draws, trace := trace }

/-- Start detection on a wire that stays High, up to the timeout: only the clock goes on, one microsecond a turn
(spec/42_receive.md R121). -/
theorem steps_polling {n : Nat} {s : State} (hs : s.Listens) (hp : s.phase = .rPoll) (hq : s.rspValid = false)
    (hbp : s.bp.toNat ≤ 1000000) (ht : s.t0.toNat ≤ s.now.toNat)
    (hn : s.now.toNat + n ≤ s.t0.toNat + 10 * s.bp.toNat) (hc : s.ClockFits n)
    (hw : s.plat.env.Holds .high s.now.toNat (s.now.toNat + n)) :
    ∃ draws trace, steps n s = .next (s.polled n draws trace) := by
  induction n generalizing s with
  | zero => exact ⟨s.draws, s.trace, by simp [steps, State.polled]⟩
  | succ n ih =>
    have hstep := step_poll_waits hs hp hq hbp (hw _ (le_refl _) (by omega)) ht (by omega)
    have hnow : (s.sampled.countDraw.advance 1).now.toNat = s.now.toNat + 1 := State.now_add hc (by omega)
    obtain ⟨draws, trace, hrun⟩ := ih (s := s.sampled.countDraw.advance 1) ⟨hs.undisturbed, hs.ideal, hs.input⟩
      hp hq hbp (by rw [hnow]; exact Nat.le_succ_of_le ht)
      (by rw [hnow, Nat.add_assoc, Nat.add_comm 1 n]; exact hn)
      (State.ClockFits_later hc hnow (by omega)) (Env.Holds_mono hw (by omega) (by omega))
    refine ⟨draws, trace, ?_⟩
    rw [steps_succ hstep, hrun]
    simp [State.polled, State.advance, State.sampled, State.note, State.countDraw, BitVec.add_assoc,
      ← BitVec.ofNat_add, Nat.add_comm 1 n]

/-- The state in which start detection has timed out after `n` microseconds. -/
def State.detectionOver (s : State) (n : Nat) (draws : Nat) (trace : List PinEvent) : State :=
  { s.polled n draws trace with timedOut := true, phase := .rAlign }

/-- A wire that is High until the timeout, at the timeout too, ends start detection there with `TO` set
(spec/42_receive.md R121 to R123). -/
theorem steps_detection_over {n : Nat} {s : State} (hs : s.Listens) (hp : s.phase = .rPoll)
    (hq : s.rspValid = false) (hbp : s.bp.toNat ≤ 1000000) (ht : s.t0.toNat ≤ s.now.toNat)
    (hn : s.now.toNat + n = s.t0.toNat + 10 * s.bp.toNat) (hc : s.ClockFits n)
    (hw : s.plat.env.Holds .high s.now.toNat (s.now.toNat + n + 1)) :
    ∃ draws trace, steps (n + 1) s = .next (s.detectionOver n draws trace) := by
  obtain ⟨draws, trace, hpoll⟩ := steps_polling hs hp hq hbp ht hn.le hc
    (Env.Holds_mono hw (le_refl _) (Nat.le_succ _))
  have hnow : (s.polled n draws trace).now.toNat = s.now.toNat + n := State.now_add hc (le_refl _)
  have hlast : step (s.polled n draws trace) = .next
      { (s.polled n draws trace).sampled with timedOut := true, phase := .rAlign } :=
    step_poll_expired ⟨hs.undisturbed, hs.ideal, hs.input⟩ hp hq hbp
      (by rw [hnow]; exact hw _ (by omega) (by omega)) (by rw [hnow]; exact hn.ge)
  exact ⟨draws, _, (steps_add n 1 s _ hpoll).trans ((steps_one _).trans hlast)⟩

/-- What one sample of level `v` writes down: one critical section, in which the pin is made an input and read. -/
def State.sampleTrace (s : State) (v : Level) : List PinEvent :=
  ⟨s.now, .unmask⟩ :: ⟨s.now, .sample v⟩ :: ⟨s.now, .setDirection .input⟩ :: ⟨s.now, .mask⟩ :: s.trace

/-- What a sample before the last leaves when its hold is over. -/
def State.sampleTaken (s : State) : State :=
  { s with
    dir := .input
    im := false
    now := s.now + BitVec.ofNat 64 s.bp.toNat
    idx := s.idx + 1
    rxb := rxInsert s.rxb (s.plat.env.levelAt s.now.toNat) s.idx
    rspValid := false
    draws := s.draws + 1
    trace := s.sampleTrace (s.plat.env.levelAt s.now.toNat) }

/-- The state in which a READ has answered `byte`, `n` microseconds after `s`. -/
def State.readAnswered (s : State) (n : Nat) (byte : Byte) (draws : Nat) (trace : List PinEvent) : State :=
  { s with
    phase := .idle
    dir := .input
    im := false
    now := s.now + BitVec.ofNat 64 n
    idx := 8
    rxb := byte
    rspValid := true
    rspData := byte
    rspErr := .ok
    draws := draws
    trace := trace }

/-- `byte` is `RXB` with the levels of the samples from bit `IDX` on, one bit-period apart from now on, ORed into
their places (spec/42_receive.md R126). -/
def State.Assembles (s : State) (byte : Byte) : Prop :=
  ∀ j, j < 8 → byte.getLsbD j = (s.rxb.getLsbD j || (decide (s.idx.toNat ≤ j) &&
    (s.plat.env.levelAt (s.now.toNat + (j - s.idx.toNat) * s.bp.toNat)).bit))

theorem State.Listens.sampleTaken {s : State} (hs : s.Listens) : s.sampleTaken.Listens :=
  ⟨hs.undisturbed, hs.ideal, rfl⟩

theorem State.sampleTaken_idx {s : State} (h : s.idx.toNat < 7) : s.sampleTaken.idx.toNat = s.idx.toNat + 1 := by
  rw [State.sampleTaken]
  bv_omega

/-- A sample whose hold is over, put together from BITR and the accumulation. -/
theorem step_sample {s : State} (hs : s.Listens) (hp : s.phase = .rBit) :
    step s = .next (((s.endPulse.mask.setDirection .input).sampled.unmask.countDraw.advance s.bp.toNat).afterRxBit
      (s.plat.env.levelAt s.now.toNat)) := by
  rw [step_rBit hs.undisturbed hp, State.sampleCell_runs (s := s.endPulse) hs.undisturbed.rstAt,
    State.waitTime_ideal (s := s.endPulse.unmask) hs.ideal]
  rfl

theorem step_sample_more {s : State} (hs : s.Listens) (hp : s.phase = .rBit) (hidx : s.idx.toNat < 7) :
    step s = .next s.sampleTaken := by
  rw [step_sample hs hp, State.afterRxBit_more _ (by simpa using hidx)]
  simp [State.sampleTaken, State.sampleTrace]

theorem step_sample_last {s : State} (hs : s.Listens) (hp : s.phase = .rBit) (hidx : s.idx.toNat = 7) :
    step s = .next (s.readAnswered s.bp.toNat (rxInsert s.rxb (s.plat.env.levelAt s.now.toNat) s.idx)
      (s.draws + 1) (s.sampleTrace (s.plat.env.levelAt s.now.toNat))) := by
  rw [step_sample hs hp, State.afterRxBit_last _ (by simpa using hidx.ge)]
  simp [State.readAnswered, State.sampleTrace, State.complete, State.respond]

/-- The last sample completes the byte. -/
theorem State.assembles_last {s : State} (hidx : s.idx.toNat = 7) :
    s.Assembles (rxInsert s.rxb (s.plat.env.levelAt s.now.toNat) s.idx) := by
  intro j hj
  rw [rxInsert_getLsbD _ _ _ hj, hidx]
  obtain hlt | rfl : j < 7 ∨ j = 7 := by omega
  · simp [hlt.ne, hlt.not_ge]
  · simp

/-- A sample before the last puts its own bit in; the samples after it put in the rest. -/
theorem State.assembles_of_sampleTaken {s : State} {byte : Byte} (hidx : s.idx.toNat < 7)
    (hnow : s.sampleTaken.now.toNat = s.now.toNat + s.bp.toNat) (h : s.sampleTaken.Assembles byte) :
    s.Assembles byte := by
  intro j hj
  rw [h j hj, State.sampleTaken_idx hidx, hnow]
  simp only [State.sampleTaken]
  rw [rxInsert_getLsbD _ _ _ hj]
  rcases lt_trichotomy j s.idx.toNat with hlt | rfl | hgt
  · have hlater : ¬s.idx.toNat + 1 ≤ j := by omega
    simp [hlt.ne, hlt.not_ge, hlater]
  · simp
  · have htime : s.now.toNat + s.bp.toNat + (j - (s.idx.toNat + 1)) * s.bp.toNat =
        s.now.toNat + (j - s.idx.toNat) * s.bp.toNat := by
      obtain ⟨d, rfl⟩ := Nat.exists_eq_add_of_lt hgt
      rw [show s.idx.toNat + d + 1 - (s.idx.toNat + 1) = d by omega, Nat.add_assoc s.idx.toNat,
        Nat.add_sub_cancel_left, Nat.succ_mul]
      omega
    simp [hgt.ne', hgt.le, Nat.succ_le_of_lt hgt, htime]

/-- From bit `IDX` on the samples are taken one bit-period apart, and the last one answers the byte
(spec/42_receive.md R126, R127). -/
theorem steps_sampling {n : Nat} {s : State} (hs : s.Listens) (hp : s.phase = .rBit) (hidx : s.idx.toNat + n = 7)
    (hc : s.ClockFits ((n + 1) * s.bp.toNat)) :
    ∃ byte draws trace, s.Assembles byte ∧
      steps (n + 1) s = .next (s.readAnswered ((n + 1) * s.bp.toNat) byte draws trace) := by
  induction n generalizing s with
  | zero =>
    exact ⟨_, _, _, State.assembles_last hidx, by
      rw [Nat.zero_add, Nat.one_mul, steps_one, step_sample_last hs hp hidx]⟩
  | succ n ih =>
    have hmore : s.idx.toNat < 7 := by omega
    have hsplit : (n + 1 + 1) * s.bp.toNat = s.bp.toNat + (n + 1) * s.bp.toNat := by
      rw [Nat.succ_mul, Nat.add_comm]
    rw [hsplit] at hc ⊢
    have hnow : s.sampleTaken.now.toNat = s.now.toNat + s.bp.toNat := State.now_add hc (Nat.le_add_right _ _)
    have hnext : s.sampleTaken.idx.toNat + n = 7 := by
      rw [State.sampleTaken_idx hmore]
      omega
    obtain ⟨byte, draws, trace, hbyte, hrun⟩ :=
      ih hs.sampleTaken hp hnext (State.ClockFits_later hc hnow (le_refl _))
    refine ⟨byte, draws, trace, State.assembles_of_sampleTaken hmore hnow hbyte, ?_⟩
    rw [steps_succ (step_sample_more hs hp hmore), hrun]
    simp only [State.readAnswered, State.sampleTaken, BitVec.ofNat_add, BitVec.add_assoc]

/-- The state in which alignment is over. -/
def State.aligned (s : State) : State :=
  { s with
    phase := .rBit
    now := s.now + BitVec.ofNat 64 (s.bp.toNat + s.bp.toNat / 2)
    idx := 0
    rspValid := false
    draws := s.draws + 1 }

theorem step_align {s : State} (hs : s.Listens) (hp : s.phase = .rAlign) (hbp : s.bp.toNat ≤ 1000000) :
    step s = .next s.aligned := by
  rw [step_rAlign hs.undisturbed hp, State.alignCell_runs (s := s.endPulse) hs.undisturbed.rstAt hs.input,
    State.waitTime_ideal (s := s.endPulse) hs.ideal, State.endPulse_bp, alignDelay_toNat hbp]
  rfl

/-- From the end of start detection on a READ answers the byte whose bits the wire shows at the eight sample
instants (spec/42_receive.md R126, R130). -/
theorem steps_align_answers {s : State} {byte : Byte} (hs : s.Listens) (hp : s.phase = .rAlign) (hrxb : s.rxb = 0)
    (hbp : s.bp.toNat ≤ 1000000) (hc : s.ClockFits (10 * s.bp.toNat))
    (hbits : ∀ j, j < 8 → (s.plat.env.levelAt
      (s.now.toNat + (s.bp.toNat + s.bp.toNat / 2) + j * s.bp.toNat)).bit = byte.getLsbD j) :
    ∃ draws trace, steps 9 s =
      .next (s.readAnswered (s.bp.toNat + s.bp.toNat / 2 + 8 * s.bp.toNat) byte draws trace) := by
  have hnow : s.aligned.now.toNat = s.now.toNat + (s.bp.toNat + s.bp.toNat / 2) := State.now_add hc (by omega)
  obtain ⟨answer, draws, trace, hassembled, hrun⟩ :=
    steps_sampling (n := 7) (s := s.aligned) ⟨hs.undisturbed, hs.ideal, hs.input⟩ rfl rfl
      (State.ClockFits_later (m := 8 * s.bp.toNat) hc hnow (by omega))
  have hanswer : answer = byte := by
    refine BitVec.eq_of_getLsbD_eq fun j hj => ?_
    rw [hassembled j hj, hnow, ← hbits j hj]
    simp [State.aligned, hrxb]
  refine ⟨draws, trace, ?_⟩
  rw [steps_succ (step_align hs hp hbp), hrun, hanswer]
  simp only [State.readAnswered, State.aligned, BitVec.ofNat_add, BitVec.add_assoc]

/-- On a wire that keeps one level the eight samples are that level. -/
theorem steps_align_answers_held {s : State} {l : Level} {byte : Byte} (hs : s.Listens) (hp : s.phase = .rAlign)
    (hrxb : s.rxb = 0) (hbp : s.bp.toNat ≤ 1000000) (hc : s.ClockFits (10 * s.bp.toNat))
    (hw : s.plat.env.Holds l s.now.toNat (s.now.toNat + 10 * s.bp.toNat + 1))
    (hbyte : ∀ j, j < 8 → byte.getLsbD j = l.bit) :
    ∃ draws trace, steps 9 s =
      .next (s.readAnswered (s.bp.toNat + s.bp.toNat / 2 + 8 * s.bp.toNat) byte draws trace) := by
  refine steps_align_answers hs hp hrxb hbp hc fun j hj => ?_
  have hlast : j * s.bp.toNat ≤ 7 * s.bp.toNat := Nat.mul_le_mul_right _ (by omega)
  rw [hbyte j hj, hw _ (by omega) (by omega)]

/-! ### READs of a wire that keeps one level -/

/-- Settles O26: the first turn of POLL detects a start, and all eight samples are Low. -/
theorem readOfALowWireAnswersZero : Obligations.ReadOfALowWireAnswersZero := by
  unfold Obligations.ReadOfALowWireAnswersZero
  intro s hp hb hconf hr hv hcmd hi hd _ hbp hc hw
  have hbegun : s.readBegun.Listens := ⟨⟨hr, rfl⟩, hi, hd⟩
  have hspan : s.bp.toNat + s.bp.toNat / 2 + 8 * s.bp.toNat ≤ 10 * s.bp.toNat := by omega
  have hdetect := step_poll_low hbegun rfl rfl (hw s.now.toNat (le_refl _) (by omega))
  obtain ⟨draws, trace, hrun⟩ := steps_align_answers_held (s := { s.readBegun.sampled with phase := .rAlign })
    (byte := 0) ⟨hbegun.undisturbed, hi, hd⟩ rfl rfl hbp hc hw (by simp [Level.bit])
  refine ⟨_, (steps_succ (step_read hp hb hconf hr hv hcmd)).trans ((steps_succ hdetect).trans hrun),
    rfl, rfl, rfl, rfl, rfl, rfl, ?_⟩
  exact (State.now_add hc hspan).trans (Nat.add_assoc _ _ _).symm

/-- Settles O25: `10 * BP` turns of POLL pass on the High wire, the next one finds the time over, and all eight
samples are High. -/
theorem readOfAHighWireTimesOut : Obligations.ReadOfAHighWireTimesOut := by
  unfold Obligations.ReadOfAHighWireTimesOut
  intro s hp hb hconf hr hv hcmd hi hd _ _ hbp hc hw
  have hbegun : s.readBegun.Listens := ⟨⟨hr, rfl⟩, hi, hd⟩
  have hspan : s.bp.toNat + s.bp.toNat / 2 + 8 * s.bp.toNat ≤ 10 * s.bp.toNat := by omega
  have hdetection : s.plat.env.Holds .high s.now.toNat (s.now.toNat + 10 * s.bp.toNat + 1) :=
    Env.Holds_mono hw (le_refl _) (by omega)
  have hsamples : s.plat.env.Holds .high (s.now.toNat + 10 * s.bp.toNat)
      (s.now.toNat + 10 * s.bp.toNat + 10 * s.bp.toNat + 1) := Env.Holds_mono hw (by omega) (by omega)
  obtain ⟨draws, trace, hover⟩ := steps_detection_over (n := 10 * s.bp.toNat) hbegun rfl rfl hbp (le_refl _) rfl
    (State.ClockFits_later (d := 0) hc rfl (by omega)) hdetection
  have hnow : (s.readBegun.detectionOver (10 * s.bp.toNat) draws trace).now.toNat =
      s.now.toNat + 10 * s.bp.toNat := State.now_add hc (by omega)
  have hfits : (s.readBegun.detectionOver (10 * s.bp.toNat) draws trace).ClockFits (10 * s.bp.toNat) :=
    State.ClockFits_later hc hnow (by omega)
  obtain ⟨draws', trace', hrun⟩ :=
    steps_align_answers_held (s := s.readBegun.detectionOver (10 * s.bp.toNat) draws trace) (byte := 0xFF)
      ⟨hbegun.undisturbed, hi, hd⟩ rfl rfl hbp hfits
      (by rw [hnow]; exact hsamples) (by decide)
  refine ⟨10 * s.bp.toNat + 1 + 9 + 1, _,
    (steps_succ (step_read hp hb hconf hr hv hcmd)).trans ((steps_add _ 9 _ _ hover).trans hrun),
    rfl, rfl, rfl, rfl, rfl, ?_⟩
  exact (State.now_add hfits hspan).trans (by rw [hnow, Nat.add_assoc _ (_ + _)])

end Sys2Proof.Machine
end

section
/-! PROOFS. A READ of the frame a peer sends: the cells of the frame on the wire, start detection at the start edge,
and the samples half a bit-period into the data cells. -/

namespace Sys2Proof.Machine

/-! ### The cells of a frame on the wire -/

/-- Cell 0 is the start cell (spec/30_encoding.md R74). -/
theorem frameLevel_start (b : Byte) : frameLevel b 0 = .low := by
  have hbit : (frameWord b).getLsbD 9 = false := by
    rw [frameWord, BitVec.getLsbD_append, BitVec.getLsbD_append]
    rfl
  rw [frameLevel, hbit]
  rfl

/-- Cell `j + 1` carries bit `j`, least significant first (spec/30_encoding.md R74, R76). -/
theorem frameLevel_data_bit (b : Byte) {j : Nat} (hj : j < 8) : (frameLevel b (j + 1)).bit = b.getLsbD j := by
  have hinner : 9 - (j + 1) - 1 < 8 := by omega
  have hplace : 8 - 1 - (9 - (j + 1) - 1) = j := by omega
  rw [frameLevel, Level.bit_ofBit, frameWord, BitVec.getLsbD_append, BitVec.getLsbD_append,
    if_neg (by omega), if_pos hinner, BitVec.getLsbD_reverse, BitVec.getMsbD, decide_eq_true hinner,
    Bool.true_and, hplace]

/-- Anywhere inside cell `k` of a frame the peer sends, the wire has the level of that cell. -/
theorem Env.Sends.levelAt_cell {env : Env} {b : Byte} {te p k d : Nat} (h : env.Sends b te p) (hk : k < 10)
    (hd : d < p) : env.levelAt (te + (k * p + d)) = frameLevel b k := by
  have hfits : (k + 1) * p ≤ 10 * p := Nat.mul_le_mul_right p hk
  have hcell : (te + (k * p + d) - te) / p = k := by
    rw [Nat.add_sub_cancel_left, Nat.add_comm, Nat.add_mul_div_right _ _ (by omega), Nat.div_eq_of_lt hd,
      Nat.zero_add]
  rw [h _ (Nat.le_add_right _ _) (by rw [Nat.succ_mul] at hfits; omega), hcell]

/-- A frame begins Low. -/
theorem Env.Sends.levelAt_start {env : Env} {b : Byte} {te p : Nat} (h : env.Sends b te p) (hp : 1 ≤ p) :
    env.levelAt te = .low := by
  simpa [frameLevel_start] using h.levelAt_cell (k := 0) (d := 0) (by omega) hp

/-- A sample `p + p/2 + j * p` after the start edge meets data cell `j` in its middle (spec/42_receive.md R130). -/
theorem Env.Sends.levelAt_sample {env : Env} {b : Byte} {te p j : Nat} (h : env.Sends b te p) (hp : 1 ≤ p)
    (hj : j < 8) : (env.levelAt (te + (p + p / 2) + j * p)).bit = b.getLsbD j := by
  have hmiddle : te + (p + p / 2) + j * p = te + ((j + 1) * p + p / 2) := by
    rw [Nat.succ_mul]
    omega
  rw [hmiddle, h.levelAt_cell (by omega) (Nat.div_lt_self hp (by omega)), frameLevel_data_bit b hj]

/-! ### Start detection -/

/-- The state in which a start edge is detected after `n` microseconds of polling. -/
def State.startDetected (s : State) (n : Nat) (draws : Nat) (trace : List PinEvent) : State :=
  { s.polled n draws trace with phase := .rAlign }

/-- A wire that is High until it falls, not after the timeout, ends start detection at the microsecond it falls,
with `TO` as it was (spec/42_receive.md R121, R123). -/
theorem steps_start_detected {n : Nat} {s : State} (hs : s.Listens) (hp : s.phase = .rPoll)
    (hq : s.rspValid = false) (hbp : s.bp.toNat ≤ 1000000) (ht : s.t0.toNat ≤ s.now.toNat)
    (hn : s.now.toNat + n ≤ s.t0.toNat + 10 * s.bp.toNat) (hc : s.ClockFits n)
    (hw : s.plat.env.Holds .high s.now.toNat (s.now.toNat + n))
    (hl : s.plat.env.levelAt (s.now.toNat + n) = .low) :
    ∃ draws trace, steps (n + 1) s = .next (s.startDetected n draws trace) := by
  obtain ⟨draws, trace, hpoll⟩ := steps_polling hs hp hq hbp ht hn hc hw
  have hnow : (s.polled n draws trace).now.toNat = s.now.toNat + n := State.now_add hc (le_refl _)
  have hlast : step (s.polled n draws trace) = .next { (s.polled n draws trace).sampled with phase := .rAlign } :=
    step_poll_low ⟨hs.undisturbed, hs.ideal, hs.input⟩ hp hq (by rw [hnow]; exact hl)
  exact ⟨draws, _, (steps_add n 1 s _ hpoll).trans ((steps_one _).trans hlast)⟩

/-! ### The READ -/

/-- Settles O27: polling finds the start edge at the microsecond it comes, so that every sample meets its data cell
in the middle. -/
theorem peerFrameIsReceived : Obligations.PeerFrameIsReceived := by
  unfold Obligations.PeerFrameIsReceived
  intro byte te s hp hb hconf hr hv hcmd hi hd _ hpos hbp hfrom hto hc hhigh hsends
  obtain ⟨n, rfl⟩ := Nat.exists_eq_add_of_le hfrom
  have hbegun : s.readBegun.Listens := ⟨⟨hr, rfl⟩, hi, hd⟩
  obtain ⟨draws, trace, hdetect⟩ := steps_start_detected (n := n) hbegun rfl rfl hbp (le_refl _) hto
    (State.ClockFits_later (d := 0) hc rfl (by omega)) hhigh (hsends.levelAt_start hpos)
  have hnow : (s.readBegun.startDetected n draws trace).now.toNat = s.now.toNat + n :=
    State.now_add hc (by omega)
  have hfits : (s.readBegun.startDetected n draws trace).ClockFits (10 * s.bp.toNat) :=
    State.ClockFits_later hc hnow (by omega)
  obtain ⟨draws', trace', hrun⟩ :=
    steps_align_answers (s := s.readBegun.startDetected n draws trace) (byte := byte)
      ⟨hbegun.undisturbed, hi, hd⟩ rfl rfl hbp hfits
      (fun j hj => by rw [hnow]; exact hsends.levelAt_sample hpos hj)
  refine ⟨n + 1 + 9 + 1, _,
    (steps_succ (step_read hp hb hconf hr hv hcmd)).trans ((steps_add _ 9 _ _ hdetect).trans hrun),
    rfl, rfl, rfl, rfl, rfl, rfl, ?_⟩
  have hspan : s.bp.toNat + s.bp.toNat / 2 + 8 * s.bp.toNat = s.bp.toNat / 2 + 9 * s.bp.toNat := by omega
  have hend := State.now_add hfits (d := s.bp.toNat + s.bp.toNat / 2 + 8 * s.bp.toNat) (by omega)
  exact hend.trans (by rw [hnow, hspan, ← Nat.add_assoc])

end Sys2Proof.Machine
end

section
/-! PROOFS. Construction and configuration: what a `FAULTED` block answers, a BIND whose lookup fails, and the
quotient CONFIGURE stores. -/

namespace Sys2Proof.Machine

/-! ### A `FAULTED` block refuses every instruction (spec/60_exceptions.md R166 RF2, R170) -/

theorem State.notReady_faulted {s : State} (h : s.phase = .faulted) : s.notReady = some .faulted := if_pos h

theorem State.notIdle_faulted {s : State} (h : s.phase = .faulted) : s.notIdle = some .faulted := by
  simp only [State.notIdle, State.notReady_faulted h]

theorem State.noTransfer_faulted {s : State} (h : s.phase = .faulted) : s.noTransfer = some .faulted := by
  simp only [State.noTransfer, State.notIdle_faulted h]

/-- No micro-operation belongs to `FAULTED` (spec/30_encoding.md R83). -/
theorem State.inPhase_faulted {s : State} {p : Phase} (k : State → Host.Outcome State Fault Refusal)
    (h : s.phase = .faulted) (hp : p ≠ .faulted) : s.inPhase p k = .refused .notCallable :=
  State.inPhase_refused k (by rw [h]; exact hp.symm)

theorem execFrame_faulted (byte : Byte) {s : State} (h : s.phase = .faulted) :
    execFrame byte s = .refused .notCallable := by
  rw [execFrame, State.inPhase_faulted _ h (by decide), ite_self]

/-- The commands meet their gate, the micro-operations their position. -/
theorem exec_faulted (i : Instr) {s : State} (h : s.phase = .faulted) : ∃ r, exec i s = .refused r := by
  cases i with
  | bind pin => exact ⟨.faulted, by simp only [exec, execBind, State.notReady_faulted h]⟩
  | configure baud => exact ⟨.faulted, by simp only [exec, execConfigure, State.notIdle_faulted h]⟩
  | write byte => exact ⟨.faulted, by simp only [exec, execWrite, State.noTransfer_faulted h]⟩
  | read => exact ⟨.faulted, by simp only [exec, execRead, State.noTransfer_faulted h]⟩
  | frame byte => exact ⟨_, execFrame_faulted byte h⟩
  | start => exact ⟨_, State.inPhase_faulted _ h (by decide)⟩
  | bitw1 => exact ⟨_, State.inPhase_faulted _ h (by decide)⟩
  | bitw0 => exact ⟨_, State.inPhase_faulted _ h (by decide)⟩
  | stop => exact ⟨_, State.inPhase_faulted _ h (by decide)⟩
  | poll => exact ⟨_, State.inPhase_faulted _ h (by decide)⟩
  | align => exact ⟨_, State.inPhase_faulted _ h (by decide)⟩
  | bitr => exact ⟨_, State.inPhase_faulted _ h (by decide)⟩

theorem State.cmdReady_faulted {s : State} (h : s.phase = .faulted) : s.cmdReady = false := by
  simp [State.cmdReady, h]

/-! ### BIND -/

/-- An unbound block looks the pin up first, and only then at who else owns it (spec/40_configuration.md R90). -/
theorem execBind_unbound (pin : PinId) {s : State} (hp : s.phase = .unbound) (hb : s.bound = false) :
    execBind pin s =
      if pin ∈ s.plat.pinFail then .next s.configurationFailure
      else if pin ∈ s.plat.otherPins then .refused .pinShared
      else .next (({ s with pin := pin, bound := true }.setDirection .input).complete 0) := by
  have hready : s.notReady = none := State.notReady_none.mpr (by simp [State.busy, hp, Phase.inTransfer])
  have hfree : ¬(s.bound = true ∨ s.phase ≠ .unbound) := by simp [hb, hp]
  simp only [execBind, hready, if_neg hfree]

/-- Settles O2: the lookup comes before the question who owns the pin, and the only other next state of a BIND is
`IDLE`. -/
theorem bindFailureIsFatal : Obligations.BindFailureIsFatal := by
  unfold Obligations.BindFailureIsFatal
  constructor
  · intro pin s hp hb hfail
    have hbind : exec (.bind pin) s = .next s.configurationFailure :=
      (execBind_unbound pin hp hb).trans (if_pos hfail)
    exact ⟨_, hbind, rfl, State.cmdReady_faulted rfl, rfl, fun i => exec_faulted i rfl⟩
  · intro pin s t hbind hfaulted
    obtain ⟨-, -, ⟨hfail, -⟩ | ⟨-, -, rfl⟩⟩ := execBind_next hbind
    · exact hfail
    · simp at hfaulted

/-! ### CONFIGURE -/

/-- The quotient is exact on 32 bits, for baud 0 too (spec/30_encoding.md R78). -/
theorem bitPeriod_toNat (baud : Word32) : (bitPeriod baud).toNat = 1000000 / baud.toNat := by
  simp [bitPeriod, Config.usecPerSec]

theorem bitPeriod_pos {baud : Word32} (hpos : 1 ≤ baud.toNat) (hmax : baud.toNat ≤ 1000000) :
    1 ≤ (bitPeriod baud).toNat := by
  rw [bitPeriod_toNat]
  exact Nat.div_pos hmax hpos

theorem bitPeriod_le (baud : Word32) : (bitPeriod baud).toNat ≤ 1000000 := by
  rw [bitPeriod_toNat]
  exact Nat.div_le_self _ _

/-- An idle block takes a baud rate in contract, configured before or not (spec/40_configuration.md R93). -/
theorem execConfigure_runs {baud : Word32} {s : State} (hp : s.phase = .idle) (hb : s.bound = true)
    (hpos : 1 ≤ baud.toNat) (hmax : baud.toNat ≤ 999999) :
    execConfigure baud s = .next ({ s with bp := bitPeriod baud, configured := true }.complete 0) := by
  have hidle : s.notIdle = none := State.notIdle_none.mpr ⟨hb, hp⟩
  have hmin : ¬baud.toNat < Config.baudMin := Nat.not_lt.mpr hpos
  have hlimit : ¬Config.baudMax < baud.toNat := Nat.not_lt.mpr hmax
  simp only [execConfigure, hidle, if_neg hmin, if_neg hlimit]

/-- A baud rate out of contract is refused wherever the block stands, by its gate or for the rate
(spec/60_exceptions.md R166 RF6, RF7). -/
theorem execConfigure_refused {baud : Word32} (s : State) (h : baud.toNat = 0 ∨ 999999 < baud.toNat) :
    ∃ r, execConfigure baud s = .refused r := by
  unfold execConfigure
  cases s.notIdle with
  | some r => exact ⟨r, rfl⟩
  | none =>
    by_cases hmin : baud.toNat < Config.baudMin
    · exact ⟨.baudZero, if_pos hmin⟩
    · have hmax : Config.baudMax < baud.toNat := by
        unfold Config.baudMin at hmin
        unfold Config.baudMax
        omega
      exact ⟨.baudTooHigh, (if_neg hmin).trans (if_pos hmax)⟩

/-- Settles O3: completion leaves an idle block idle, so that only `BP`, `CONFIGURED` and the response change. -/
theorem configureStoresTheQuotient : Obligations.ConfigureStoresTheQuotient := by
  unfold Obligations.ConfigureStoresTheQuotient
  refine ⟨fun baud s h => execConfigure_refused s h, fun baud s hp hb hpos hmax => ?_⟩
  refine ⟨bitPeriod_toNat baud, bitPeriod_pos hpos (by omega), bitPeriod_le baud, ?_⟩
  refine (execConfigure_runs hp hb hpos hmax).trans ?_
  simp only [State.complete, State.respond, ← hp]

end Sys2Proof.Machine
end

section
/-! PROOFS. The four cells a transmitter drives, on a wire nobody else drives and with no reset to come: START and
STOP, held inside their critical section, BITW1 and BITW0, held outside theirs. -/

namespace Sys2Proof.Machine

/-! ### Waits on a free wire -/

/-- On a free wire nothing but a reset ends a wait early, whatever the direction of the pin. -/
theorem State.delay_andThen_free {s : State} {d : Nat} (k : State → State) (hr : s.rstAt = [])
    (hfree : s.WireFree (s.waitTime d)) :
    (s.delay d).andThen k = .next (k (s.countDraw.advance (s.waitTime d))) := by
  rw [State.delay_done hr (State.contended_false _ hfree)]
  rfl

/-- A wait inside a critical section lasts exactly its time (spec/43_timing_primitives.md R141). -/
theorem State.delay_andThen_masked {s : State} {d : Nat} (k : State → State) (hr : s.rstAt = [])
    (hm : s.im = true) (hfree : s.WireFree d) :
    (s.delay d).andThen k = .next (k (s.countDraw.advance d)) := by
  have hwait : s.waitTime d = d := State.waitTime_masked d hm
  rw [State.delay_andThen_free k hr (by rwa [hwait]), hwait]

/-- A wait lasts its time and at most `J_OPEN` more (spec/43_timing_primitives.md R141): a wire free for the longest
wait is free for this one. -/
theorem State.delay_andThen_within {s : State} {d : Nat} (k : State → State) (hr : s.rstAt = [])
    (hfree : s.WireFree (d + s.plat.jOpen)) :
    ∃ j, j ≤ s.plat.jOpen ∧ (s.delay d).andThen k = .next (k (s.countDraw.advance (d + j))) := by
  have hle : s.waitTime d ≤ d + s.plat.jOpen := s.waitTime_le d
  obtain ⟨j, hj⟩ := Nat.exists_eq_add_of_le (s.le_waitTime d)
  have hwait := State.delay_andThen_free k hr (State.WireFree_mono hfree hle)
  rw [hj] at hwait hle
  exact ⟨j, Nat.le_of_add_le_add_left hle, hwait⟩

/-! ### START and STOP: the hold is masked -/

theorem State.startCell_runs {s : State} (hr : s.rstAt = []) (hfree : s.WireFree s.bp.toNat) :
    s.startCell = .next ((((s.mask.setDirection .output).setLevel .low).countDraw.advance
      s.bp.toNat).unmask.enterData .wBit) :=
  State.delay_andThen_masked (s := (s.mask.setDirection .output).setLevel .low) _ hr rfl hfree

theorem State.stopCell_runs {s : State} (hr : s.rstAt = []) (hfree : s.WireFree s.bp.toNat) :
    s.stopCell = .next (((((s.mask.setLevel .high).countDraw.advance s.bp.toNat).setDirection .input).setLevel
      .low).unmask.complete 0) :=
  State.delay_andThen_masked (s := s.mask.setLevel .high) _ hr rfl hfree

/-- Settles O9: in `W_START` START is the start cell. -/
theorem startCellEffect : Obligations.StartCellEffect := by
  unfold Obligations.StartCellEffect
  intro s hp hr hfree
  have hcell : exec .start s = s.startCell := State.inPhase_run State.startCell hp
  rw [hcell, State.startCell_runs hr hfree]
  simp [State.enterData]

/-- Settles O12: in `W_STOP` STOP is the stop cell. -/
theorem stopCellEffect : Obligations.StopCellEffect := by
  unfold Obligations.StopCellEffect
  intro s hp hr hfree
  have hcell : exec .stop s = s.stopCell := State.inPhase_run State.stopCell hp
  rw [hcell, State.stopCell_runs hr hfree]
  simp [State.complete, State.respond]

/-! ### BITW1 and BITW0: the hold follows UNMASK -/

/-- Both lines of `W_BIT` in one equation (spec/10_state.md R20): the next bit, or after bit 7 the stop cell. The
position is a name of its own, so that the conditions speak of it however `s` is written. -/
theorem State.afterTxBit_at {s : State} {i : BitVec 4} (hp : s.phase = .wBit) (hi : s.idx = i) :
    s.afterTxBit = { s with
      phase := if i.toNat < 7 then .wBit else .wStop
      idx := if i.toNat < 7 then i + 1 else 8 } := by
  subst hi
  by_cases hidx : s.idx.toNat < 7
  · rw [State.afterTxBit_more hidx, if_pos hidx, if_pos hidx, ← hp]
  · rw [State.afterTxBit_last (Nat.le_of_not_lt hidx), if_neg hidx, if_neg hidx]

/-- BITW1: direction and then level stand when the hold begins. -/
theorem State.highCell_runs {s : State} (hr : s.rstAt = []) (hfree : s.WireFree (s.bp.toNat + s.plat.jOpen)) :
    ∃ j, j ≤ s.plat.jOpen ∧ s.highCell =
      .next (((s.mask.setDirection .output).setLevel .high).unmask.countDraw.advance (s.bp.toNat + j)).afterTxBit :=
  State.delay_andThen_within (s := ((s.mask.setDirection .output).setLevel .high).unmask) _ hr hfree

/-- BITW0: level and then direction stand when the hold begins. -/
theorem State.lowCell_runs {s : State} (hr : s.rstAt = []) (hfree : s.WireFree (s.bp.toNat + s.plat.jOpen)) :
    ∃ j, j ≤ s.plat.jOpen ∧ s.lowCell =
      .next (((s.mask.setLevel .low).setDirection .output).unmask.countDraw.advance (s.bp.toNat + j)).afterTxBit :=
  State.delay_andThen_within (s := ((s.mask.setLevel .low).setDirection .output).unmask) _ hr hfree

/-- Settles O10: in `W_BIT` BITW1 is the data cell that drives High. -/
theorem highCellEffect : Obligations.HighCellEffect := by
  unfold Obligations.HighCellEffect
  intro s hp hr hfree
  have hcell : exec .bitw1 s = s.highCell := State.inPhase_run State.highCell hp
  obtain ⟨j, hj, hheld⟩ := State.highCell_runs hr hfree
  refine ⟨j, hj, ?_⟩
  rw [hcell, hheld, State.afterTxBit_at (i := s.idx) (by simpa using hp) (by simp)]
  simp

/-- Settles O11: in `W_BIT` BITW0 is the data cell that drives Low. -/
theorem lowCellEffect : Obligations.LowCellEffect := by
  unfold Obligations.LowCellEffect
  intro s hp hr hfree
  have hcell : exec .bitw0 s = s.lowCell := State.inPhase_run State.lowCell hp
  obtain ⟨j, hj, hheld⟩ := State.lowCell_runs hr hfree
  refine ⟨j, hj, ?_⟩
  rw [hcell, hheld, State.afterTxBit_at (i := s.idx) (by simpa using hp) (by simp)]
  simp

end Sys2Proof.Machine
end

section
/-! PROOFS. Receive from any state that meets the premises: the waits of ALIGN and BITR with their extra time, and the
end of start detection whatever the wire and the preemption. -/

namespace Sys2Proof.Machine

/-- A wait is its time and an extra time of at most `J_OPEN` (spec/43_timing_primitives.md R141). -/
theorem State.waitTime_eq_add (s : State) (d : Nat) : ∃ j, j ≤ s.plat.jOpen ∧ s.waitTime d = d + j := by
  obtain ⟨j, hj⟩ := Nat.exists_eq_add_of_le (s.le_waitTime d)
  have hle := s.waitTime_le d
  exact ⟨j, by omega, hj⟩

/-! ### ALIGN and BITR -/

/-- Settles O21: in `R_ALIGN` ALIGN is one wait, after which the first data bit is next. -/
theorem alignEffect : Obligations.AlignEffect := by
  unfold Obligations.AlignEffect
  intro s hp hd _ hr
  have hcell : exec .align s = s.alignCell := State.inPhase_run State.alignCell hp
  obtain ⟨j, hj, hwait⟩ := s.waitTime_eq_add (alignDelay s.bp).toNat
  refine ⟨j, hj, ?_⟩
  rw [hcell, State.alignCell_runs hr hd, hwait]
  simp [State.enterData]

/-- Both lines of `R_BIT` in one equation (spec/10_state.md R20): the next bit, or after bit 7 the response. -/
theorem State.afterRxBit_eq (s : State) (v : Level) :
    s.afterRxBit v = if s.idx.toNat < 7 then { s with rxb := rxInsert s.rxb v s.idx, idx := s.idx + 1 }
      else { s with rxb := rxInsert s.rxb v s.idx, idx := 8 }.complete (rxInsert s.rxb v s.idx) := by
  split
  next hmore => exact State.afterRxBit_more v hmore
  next hlast => exact State.afterRxBit_last v (Nat.le_of_not_lt hlast)

/-- Settles O22: in `R_BIT` BITR is one critical section, one hold after it, and the bit ORed into its place. -/
theorem sampleCellEffect : Obligations.SampleCellEffect := by
  unfold Obligations.SampleCellEffect
  intro s hp hr
  have hcell : exec .bitr s = s.sampleCell := State.inPhase_run State.sampleCell hp
  obtain ⟨j, hj, hwait⟩ := s.unmask.waitTime_eq_add s.bp.toNat
  refine ⟨j, hj, ?_⟩
  rw [hcell, State.sampleCell_runs hr, hwait, State.afterRxBit_eq]
  simp [rxInsert, State.complete, State.respond]

/-! ### Start detection -/

theorem Level.bit_eq_true_iff (l : Level) : l.bit = true ↔ l = .high := by cases l <;> simp [Level.bit]

theorem Level.eq_high_of_ne_low {l : Level} (h : l ≠ .low) : l = .high := by
  cases l with
  | low => exact absurd rfl h
  | high => rfl

/-- The state in which POLL leaves for alignment `n` microseconds after `s`: `TO` is the level of the wire there
(spec/42_receive.md R121, R133). -/
def State.pollLeft (s : State) (n : Nat) (draws : Nat) (trace : List PinEvent) : State :=
  { s.endPulse.polled n draws trace with
    timedOut := (s.plat.env.levelAt (s.now.toNat + n)).bit
    phase := .rAlign }

/-- The state after a turn of POLL in which `n` microseconds passed. -/
def State.pollWaited (s : State) (n : Nat) : State := s.endPulse.sampled.countDraw.advance n

/-- A Low wire and a timeout that has passed both end start detection at once (spec/42_receive.md R121, R123). -/
theorem step_poll_leaves {s : State} (hu : s.Undisturbed) (hp : s.phase = .rPoll) (hd : s.dir = .input)
    (hto : s.timedOut = false) (hbp : s.bp.toNat ≤ 1000000) (ht : s.t0.toNat ≤ s.now.toNat)
    (hexit : s.plat.env.levelAt s.now.toNat = .low ∨ s.t0.toNat + 10 * s.bp.toNat ≤ s.now.toNat) :
    ∃ trace, step s = .next (s.pollLeft 0 s.draws trace) := by
  have hread : s.endPulse.readLevel = s.plat.env.levelAt s.now.toNat := State.readLevel_input hd
  rw [step_rPoll hu hp]
  cases hl : s.plat.env.levelAt s.now.toNat with
  | low =>
    refine ⟨s.endPulse.sampled.trace, ?_⟩
    rw [State.pollTurn_low (hread.trans hl)]
    simp [State.pollLeft, State.polled, hl, Level.bit, State.sampled, State.note, ← hto]
  | high =>
    have hexpired : s.endPulse.pollExpired = true :=
      (State.pollExpired_iff (s := s.endPulse) hbp ht).mpr (hexit.resolve_left (by simp [hl]))
    refine ⟨s.endPulse.sampled.trace, ?_⟩
    rw [State.pollTurn_expired (hread.trans hl) hexpired]
    simp [State.pollLeft, State.polled, hl, Level.bit, State.sampled, State.note]

/-- A wire that is High before the timeout costs a microsecond and an extra time of at most `J_OPEN`
(spec/42_receive.md R121). -/
theorem step_poll_waits_within {s : State} (hu : s.Undisturbed) (hp : s.phase = .rPoll) (hd : s.dir = .input)
    (hbp : s.bp.toNat ≤ 1000000) (ht : s.t0.toNat ≤ s.now.toNat)
    (hl : s.plat.env.levelAt s.now.toNat = .high) (hn : s.now.toNat < s.t0.toNat + 10 * s.bp.toNat) :
    ∃ j, j ≤ s.plat.jOpen ∧ step s = .next (s.pollWaited (1 + j)) := by
  have hearly : s.endPulse.pollExpired = false := by
    rw [Bool.eq_false_iff, Ne, State.pollExpired_iff (s := s.endPulse) hbp ht]
    exact Nat.not_le.mpr hn
  obtain ⟨j, hj, hwait⟩ := s.endPulse.waitTime_eq_add 1
  refine ⟨j, hj, ?_⟩
  rw [step_rPoll hu hp, State.pollTurn_waits (s := s.endPulse) hu.rstAt hd ((State.readLevel_input hd).trans hl) hearly,
    hwait, State.pollWaited]

/-- Leaving `m` microseconds after a wait of `n` is leaving `n + m` microseconds after its beginning. -/
theorem State.pollWaited_pollLeft {s : State} {n : Nat} (hnow : (s.pollWaited n).now.toNat = s.now.toNat + n)
    (m draws : Nat) (trace : List PinEvent) :
    (s.pollWaited n).pollLeft m draws trace = s.pollLeft (n + m) draws trace := by
  rw [State.pollLeft, hnow]
  simp [State.pollLeft, State.polled, State.pollWaited, State.endPulse, State.advance, State.sampled, State.note,
    State.countDraw, BitVec.add_assoc, ← BitVec.ofNat_add, Nat.add_assoc]

/-- POLL leaves within `n` turns, not later than `J_OPEN` after the timeout, and on a High wire not before the timeout
(spec/42_receive.md R121, R122). -/
def State.PollLeavesWithin (s : State) (n : Nat) : Prop :=
  ∃ k d draws trace, k ≤ n ∧ steps k s = .next (s.pollLeft d draws trace) ∧
    s.now.toNat + d ≤ max s.now.toNat (s.t0.toNat + 10 * s.bp.toNat + s.plat.jOpen) ∧
    (s.plat.env.levelAt (s.now.toNat + d) = .high → s.t0.toNat + 10 * s.bp.toNat ≤ s.now.toNat + d)

/-- A turn that leaves is the last one. -/
theorem State.pollLeavesWithin_of_exit {s : State} {n : Nat} {trace : List PinEvent}
    (hexit : s.plat.env.levelAt s.now.toNat = .low ∨ s.t0.toNat + 10 * s.bp.toNat ≤ s.now.toNat)
    (hstep : step s = .next (s.pollLeft 0 s.draws trace)) : s.PollLeavesWithin (n + 1) := by
  refine ⟨1, 0, s.draws, trace, Nat.le_add_left 1 n, (steps_one s).trans hstep, Nat.le_max_left _ _, fun hhigh => ?_⟩
  exact hexit.resolve_left (by simp [show s.plat.env.levelAt s.now.toNat = .high from hhigh])

/-- A turn that begins before the timeout and waits comes before those that follow; it passes the timeout by at most
`J_OPEN`. -/
theorem State.pollLeavesWithin_of_wait {s : State} {n j : Nat} (hj : j ≤ s.plat.jOpen)
    (hearly : s.now.toNat < s.t0.toNat + 10 * s.bp.toNat)
    (hnow : (s.pollWaited (1 + j)).now.toNat = s.now.toNat + (1 + j))
    (hstep : step s = .next (s.pollWaited (1 + j))) (h : (s.pollWaited (1 + j)).PollLeavesWithin n) :
    s.PollLeavesWithin (n + 1) := by
  obtain ⟨k, d, draws, trace, hk, hrun, hlate, htimeout⟩ := h
  rw [State.pollWaited_pollLeft hnow] at hrun
  rw [hnow, Nat.add_assoc] at hlate htimeout
  refine ⟨k + 1, 1 + j + d, draws, trace, Nat.succ_le_succ hk, (steps_succ hstep).trans hrun, ?_, htimeout⟩
  exact hlate.trans (max_le (le_max_of_le_right (by omega)) (le_max_right _ _))

/-- Start detection ends, by induction on the microseconds `n` that are left to the timeout: every turn that does not
leave takes one of them at least (spec/42_receive.md R121 to R123). -/
theorem State.pollLeavesWithin {n : Nat} {s : State} (hu : s.Undisturbed) (hp : s.phase = .rPoll)
    (hd : s.dir = .input) (hto : s.timedOut = false) (hbp : s.bp.toNat ≤ 1000000) (ht : s.t0.toNat ≤ s.now.toNat)
    (hc : s.t0.toNat + 10 * s.bp.toNat + s.plat.jOpen < 2 ^ 64)
    (hn : s.t0.toNat + 10 * s.bp.toNat ≤ s.now.toNat + n) : s.PollLeavesWithin (n + 1) := by
  induction n generalizing s with
  | zero =>
    obtain ⟨trace, hleave⟩ := step_poll_leaves hu hp hd hto hbp ht (.inr hn)
    exact State.pollLeavesWithin_of_exit (.inr hn) hleave
  | succ n ih =>
    by_cases hexit : s.plat.env.levelAt s.now.toNat = .low ∨ s.t0.toNat + 10 * s.bp.toNat ≤ s.now.toNat
    · obtain ⟨trace, hleave⟩ := step_poll_leaves hu hp hd hto hbp ht hexit
      exact State.pollLeavesWithin_of_exit hexit hleave
    · obtain ⟨hlevel, hbefore⟩ := not_or.mp hexit
      have hearly := Nat.lt_of_not_le hbefore
      obtain ⟨j, hj, hwait⟩ := step_poll_waits_within hu hp hd hbp ht (Level.eq_high_of_ne_low hlevel) hearly
      have hfits : s.ClockFits (1 + j) := by unfold State.ClockFits; omega
      have hnow : (s.pollWaited (1 + j)).now.toNat = s.now.toNat + (1 + j) := State.now_add hfits (le_refl _)
      refine State.pollLeavesWithin_of_wait hj hearly hnow hwait (ih hu hp hd hto hbp ?_ hc ?_)
      · exact hnow ▸ Nat.le_add_right_of_le ht
      · exact hn.trans (by omega)

/-- Settles O23: at most `10 * BP` microseconds are left to the timeout; where POLL leaves, the flag is the level of
the wire and `pollLeft` writes neither the pin, the latch, `RXB`, `BP` nor the parameters. -/
theorem startDetectionEnds : Obligations.StartDetectionEnds := by
  unfold Obligations.StartDetectionEnds
  intro s hp hu hd hto hbp ht hc
  have hlimit : s.t0.toNat + 10 * s.bp.toNat + s.plat.jOpen < 2 ^ 64 := by
    unfold State.ClockFits at hc
    omega
  obtain ⟨k, d, draws, trace, hk, hrun, hlate, htimeout⟩ :=
    State.pollLeavesWithin (n := 10 * s.bp.toNat) hu hp hd hto hbp ht hlimit (by omega)
  have hd_le : d ≤ 10 * s.bp.toNat + 1 + s.plat.jOpen := by omega
  have hnow : (s.pollLeft d draws trace).now.toNat = s.now.toNat + d := State.now_add hc hd_le
  have hflag : (s.pollLeft d draws trace).timedOut = true ↔ s.plat.env.levelAt (s.now.toNat + d) = .high :=
    Level.bit_eq_true_iff _
  refine ⟨k, s.pollLeft d draws trace, hk, hrun, rfl, ?_, ?_, ?_, ?_, hd, rfl, rfl, rfl, rfl⟩ <;> rw [hnow]
  · exact Nat.le_add_right _ _
  · exact hlate
  · exact hflag
  · exact fun htrue => htimeout (hflag.mp htrue)

end Sys2Proof.Machine
end

section
/-! PROOFS. Encoding: `decode` and `encode` are inverse to each other on the three formats of a code. -/

namespace Sys2Proof

/-! ### The wire frame -/

/-- A frame that begins Low and ends High is the frame of the byte between (spec/30_encoding.md R74). -/
theorem frameWord_frameByte {w : FrameWord} (hstart : w.getLsbD 9 = false) (hstop : w.getLsbD 0 = true) :
    frameWord (frameByte w) = w := by
  refine BitVec.eq_of_getLsbD_eq fun j hj => ?_
  rw [frameWord, frameByte, BitVec.reverse_reverse_eq, BitVec.getLsbD_append, BitVec.getLsbD_append]
  obtain rfl | hdata | rfl : j = 0 ∨ (1 ≤ j ∧ j ≤ 8) ∨ j = 9 := by omega
  · simpa using hstop.symm
  · obtain ⟨hpos, hlast⟩ := hdata
    have hinner : j - 1 < 8 := by omega
    have hplace : 1 + (j - 1) = j := by omega
    simp [hinner, hplace, Nat.not_lt.mpr hpos]
  · simpa using hstart.symm

/-- A frame that decodes begins Low and ends High. -/
theorem decodeFrame_ok {w : FrameWord} {i : Instr} (h : decodeFrame w = .ok i) :
    w.getLsbD 9 = false ∧ w.getLsbD 0 = true ∧ i = .frame (frameByte w) := by
  unfold decodeFrame at h
  cases hstart : w.getLsbD 9 <;> cases hstop : w.getLsbD 0 <;> simp_all

/-! ### The command word -/

/-- Which fields a command word of each operation has (spec/30_encoding.md R71, R72). -/
theorem decodeCmd_fields {w : CmdWord} {i : Instr} (h : decodeCmd w = .ok i) :
    (cmdOp w = 0b00#2 ∧ argReserved (cmdArg w) = 0 ∧ i = .bind (argByte (cmdArg w))) ∨
    (cmdOp w = 0b01#2 ∧ i = .configure (cmdArg w)) ∨
    (cmdOp w = 0b10#2 ∧ argReserved (cmdArg w) = 0 ∧ i = .write (argByte (cmdArg w))) ∨
    (cmdOp w = 0b11#2 ∧ cmdArg w = 0 ∧ i = .read) := by
  have hop : cmdOp w = 0b00#2 ∨ cmdOp w = 0b01#2 ∨ cmdOp w = 0b10#2 ∨ cmdOp w = 0b11#2 := by
    generalize cmdOp w = op
    revert op
    decide
  unfold decodeCmd at h
  have hguard : ∀ {p : Prop} [Decidable p] {j : Instr},
      (if p then Except.ok j else Except.error DecodeError.reservedBits) = .ok i → p ∧ i = j := by
    intro p _ j hj
    split at hj
    next hp => exact ⟨hp, (Except.ok.inj hj).symm⟩
    next => cases hj
  rcases hop with hop | hop | hop | hop <;> simp only [hop] at h
  · exact .inl ⟨hop, hguard h⟩
  · exact .inr (.inl ⟨hop, (Except.ok.inj h).symm⟩)
  · exact .inr (.inr (.inl ⟨hop, hguard h⟩))
  · exact .inr (.inr (.inr ⟨hop, hguard h⟩))

/-- A command word that decodes is the encoding of what it decodes to. -/
theorem encode_of_decodeCmd {w : CmdWord} {i : Instr} (h : decodeCmd w = .ok i) : encode i = .cmd w := by
  have hword : ∀ {op arg}, cmdOp w = op → cmdArg w = arg → cmdWord op arg = w := by
    rintro _ _ rfl rfl
    exact cmdWord_fields w
  rcases decodeCmd_fields h with ⟨hop, hres, rfl⟩ | ⟨hop, rfl⟩ | ⟨hop, hres, rfl⟩ | ⟨hop, harg, rfl⟩
  · exact congrArg Code.cmd (hword hop (setWidth_argByte hres).symm)
  · exact congrArg Code.cmd (hword hop rfl)
  · exact congrArg Code.cmd (hword hop (setWidth_argByte hres).symm)
  · exact congrArg Code.cmd (hword hop harg)

/-- Decoding an encoding gives the instruction back: a command by its two fields, a frame by its cells, a cell by its
place. -/
theorem decode_encode (i : Instr) : decode (encode i) = .ok i := by
  cases i with
  | bind pin => simp [encode, decode, decodeCmd]
  | configure baud => simp [encode, decode, decodeCmd]
  | write byte => simp [encode, decode, decodeCmd]
  | read => simp [encode, decode, decodeCmd]
  | frame byte => exact Machine.decode_frameWord byte
  | start | bitw1 | bitw0 | stop | poll | align | bitr => rfl

/-- Settles O50: `encode` is a right inverse of `decode` on every code, so it is injective; on command words and frames
it is a left inverse too. -/
theorem decodeAndEncodeAgree : Obligations.DecodeAndEncodeAgree := by
  unfold Obligations.DecodeAndEncodeAgree
  refine ⟨decode_encode, fun w i h => encode_of_decodeCmd h, fun w i h => ?_, fun i j h => ?_⟩
  · obtain ⟨hstart, hstop, rfl⟩ := decodeFrame_ok h
    exact congrArg Code.wire (frameWord_frameByte hstart hstop)
  · have hdecoded := congrArg decode h
    rw [decode_encode, decode_encode] at hdecoded
    exact Except.ok.inj hdecoded

/-- Settles O51: the framing cells are constant, and a level is determined by its bit. -/
theorem frameCellsOfAByte : Obligations.FrameCellsOfAByte := by
  unfold Obligations.FrameCellsOfAByte
  refine fun b => ⟨Machine.frameLevel_start b, fun i hi => Machine.frameLevel_data_bit b hi, ?_⟩
  rw [Machine.frameLevel, frameWord, BitVec.getLsbD_append]
  rfl

/-- Settles O52: thirteen fixed words. -/
theorem wordsOfTheVectorsDecode : Obligations.WordsOfTheVectorsDecode := by
  unfold Obligations.WordsOfTheVectorsDecode
  decide

end Sys2Proof
end

section
/-! PROOFS. Transmit: a frame as its ten cells, cell by cell, with the time and the operations of each; the WRITE that
runs it; and what the wire and the mask are at every microsecond of it. -/

namespace Sys2Proof.Machine

/-! ### Contention -/

/-- A wait made while the pin is an output is refused if another agent drives during its nominal time
(spec/60_exceptions.md R166 RF10): the extra time only makes the span longer. -/
theorem State.delay_andThen_contention {s : State} {d u : Nat} (k : State → State) (hr : s.rstAt = [])
    (hd : s.dir = .output) (hlo : s.now.toNat ≤ u) (hhi : u < s.now.toNat + d)
    (hdriven : (s.plat.env.at u).drives = true) : (s.delay d).andThen k = .refused .contention := by
  have hwait : d ≤ s.waitTime d := s.le_waitTime d
  have hspan : s.countDraw.contended (s.waitTime d) = true := by
    simp only [State.contended, State.countDraw_dir, hd]
    exact (Env.drivenIn_iff _ _ _).mpr ⟨u, hlo, hhi.trans_le (Nat.add_le_add_left hwait _), hdriven⟩
  have hcut : s.countDraw.cutAfter (s.waitTime d) = none := State.cutAfter_none _ hr
  simp only [State.delay, State.elapse, hcut, hspan, if_true, Held.andThen]

/-- Settles O13: the pin is an output when the hold of each of the four cells begins. -/
theorem contentionIsRefused : Obligations.ContentionIsRefused := by
  unfold Obligations.ContentionIsRefused
  intro s u hr hlo hhi hdriven
  refine ⟨fun hp => ?_, fun hp => ⟨?_, ?_⟩, fun hp hd => ?_⟩
  · exact (State.inPhase_run _ hp).trans (State.delay_andThen_contention
      (s := (s.mask.setDirection .output).setLevel .low) _ hr rfl hlo hhi hdriven)
  · exact (State.inPhase_run _ hp).trans (State.delay_andThen_contention
      (s := ((s.mask.setDirection .output).setLevel .high).unmask) _ hr rfl hlo hhi hdriven)
  · exact (State.inPhase_run _ hp).trans (State.delay_andThen_contention
      (s := ((s.mask.setLevel .low).setDirection .output).unmask) _ hr rfl hlo hhi hdriven)
  · exact (State.inPhase_run _ hp).trans (State.delay_andThen_contention
      (s := s.mask.setLevel .high) _ hr hd hlo hhi hdriven)

/-! ### The next cell of a frame -/

theorem State.NoReset.resetDue {s : State} (h : s.NoReset) : s.resetDue = false := State.resetDue_none h.1 h.2

theorem State.nextCell_wStart {s : State} (hr : s.resetDue = false) (hp : s.phase = .wStart) :
    s.nextCell = s.startCell := by simp [State.nextCell, hr, hp]

theorem State.nextCell_high {s : State} (hr : s.resetDue = false) (hp : s.phase = .wBit)
    (hbit : txBit s.txb s.idx = .high) : s.nextCell = s.highCell := by simp [State.nextCell, hr, hp, hbit]

theorem State.nextCell_low {s : State} (hr : s.resetDue = false) (hp : s.phase = .wBit)
    (hbit : txBit s.txb s.idx = .low) : s.nextCell = s.lowCell := by simp [State.nextCell, hr, hp, hbit]

theorem State.nextCell_wStop {s : State} (hr : s.resetDue = false) (hp : s.phase = .wStop) :
    s.nextCell = s.stopCell := by simp [State.nextCell, hr, hp]

/-- Where no frame is being transmitted nothing is left to do. -/
theorem State.nextCell_unbound {s : State} (hp : s.phase = .unbound) : s.nextCell = .next s := by
  simp [State.nextCell, State.busy, hp, Phase.inTransfer]

theorem State.nextCells_succ {k : Nat} {s t : State} (h : s.nextCell = .next t) :
    s.nextCells (k + 1) = t.nextCells k := by simp only [State.nextCells, h]

theorem State.nextCells_one (s : State) : s.nextCells 1 = s.nextCell := by
  simp only [State.nextCells]
  cases s.nextCell <;> rfl

/-- Cells follow each other. -/
theorem State.nextCells_add (a b : Nat) {s t : State} (h : s.nextCells a = .next t) :
    s.nextCells (a + b) = t.nextCells b := by
  induction a generalizing s with
  | zero =>
    obtain rfl : s = t := Host.Outcome.next.inj h
    rw [Nat.zero_add]
  | succ a ih =>
    rw [Nat.succ_add]
    cases hcell : s.nextCell with
    | next u =>
      rw [State.nextCells_succ hcell] at h ⊢
      exact ih h
    | fault r => simp [State.nextCells, hcell] at h
    | refused r => simp [State.nextCells, hcell] at h

theorem exec_frame {s : State} (hp : s.phase = .wStart) : exec (.frame s.txb) s = s.nextCells 10 :=
  (if_pos rfl).trans (State.inPhase_run _ hp)

/-! ### A step of a frame is its next cell (spec/10_state.md R20) -/

/-- How many cells of the frame are left to transmit. -/
def State.cellsLeft (s : State) : Nat :=
  match s.phase with
  | .wStart => 10
  | .wBit => max 2 (9 - s.idx.toNat)
  | .wStop => 1
  | .unbound | .idle | .rPoll | .rAlign | .rBit | .faulted => 0

/-- Nothing disturbs the frame, no response pulse stands, and the cells are to be run one step each. -/
structure State.StepsByCell (s : State) : Prop where
  undisturbed : s.Undisturbed
  pulseOver : s.rspValid = false
  byCell : s.wholeFrame = false

/-- While cells are left, a step runs the next one. -/
theorem State.StepsByCell.step_eq_nextCell {s : State} (hs : s.StepsByCell) (hleft : s.cellsLeft ≠ 0) :
    step s = s.nextCell := by
  have hdue := hs.undisturbed.1.resetDue
  have hrun : ∀ {i}, s.current = some i → step s = exec i s := fun hi => by
    rw [step_transfer hdue hs.undisturbed.2 hi, State.endPulse_id hs.pulseOver]
  cases hp : s.phase with
  | wStart =>
    rw [hrun (i := .start) (by simp [State.current, hp, hs.byCell]), State.nextCell_wStart hdue hp]
    exact State.inPhase_run _ hp
  | wBit =>
    cases hbit : s.txb.getLsbD s.idx.toNat with
    | true =>
      rw [hrun (i := .bitw1) (by simp [State.current, hp, hbit]),
        State.nextCell_high hdue hp (by simp [txBit, hbit, Level.ofBit])]
      exact State.inPhase_run _ hp
    | false =>
      rw [hrun (i := .bitw0) (by simp [State.current, hp, hbit]),
        State.nextCell_low hdue hp (by simp [txBit, hbit, Level.ofBit])]
      exact State.inPhase_run _ hp
  | wStop =>
    rw [hrun (i := .stop) (by simp [State.current, hp]), State.nextCell_wStop hdue hp]
    exact State.inPhase_run _ hp
  | unbound | idle | rPoll | rAlign | rBit | faulted => simp [State.cellsLeft, hp] at hleft

/-- A data cell is followed by the next one, or after bit 7 by the stop cell. -/
theorem State.afterTxBit_cellsLeft {s : State} (hp : s.phase = .wBit) :
    s.afterTxBit.cellsLeft + 1 = s.cellsLeft := by
  by_cases hmore : s.idx.toNat < 7
  · have hidx : (s.idx + 1).toNat = s.idx.toNat + 1 := by bv_omega
    simp only [State.afterTxBit_more hmore, State.cellsLeft, hp, hidx]
    omega
  · simp only [State.afterTxBit_last (Nat.le_of_not_lt hmore), State.cellsLeft, hp]
    omega

theorem State.StepsByCell.kept {s t : State} (hs : s.StepsByCell) (hrst : t.rst = s.rst) (hat : t.rstAt = s.rstAt)
    (hcmd : t.cmdValid = s.cmdValid) (hpulse : t.rspValid = s.rspValid) (hwhole : t.wholeFrame = s.wholeFrame) :
    t.StepsByCell :=
  ⟨⟨⟨hrst.trans hs.undisturbed.1.1, hat.trans hs.undisturbed.1.2⟩, hcmd.trans hs.undisturbed.2⟩,
    hpulse.trans hs.pulseOver, hwhole.trans hs.byCell⟩

theorem State.StepsByCell.afterTxBit {s : State} (hs : s.StepsByCell) : s.afterTxBit.StepsByCell := by
  unfold State.afterTxBit
  split <;> exact hs.kept (by simp) (by simp) (by simp) (by simp) (by simp)

/-- A cell that is over leaves one cell less, and a frame that is still undisturbed. -/
theorem State.StepsByCell.next {s t : State} (hs : s.StepsByCell) (hleft : s.cellsLeft ≠ 0)
    (hcell : s.nextCell = .next t) : t.cellsLeft + 1 = s.cellsLeft ∧ (t.cellsLeft ≠ 0 → t.StepsByCell) := by
  have hdue := hs.undisturbed.1.resetDue
  have hnocut : ∀ {p : Prop}, s.rstAt ≠ [] ∧ p → False := fun h => h.1 hs.undisturbed.1.2
  cases hp : s.phase with
  | wStart =>
    rw [State.nextCell_wStart hdue hp] at hcell
    obtain rfl | ⟨n, hcut⟩ := startCell_next hcell
    · exact ⟨by simp [State.cellsLeft, hp], fun _ => hs.kept (by simp) (by simp) (by simp) (by simp) (by simp)⟩
    · exact (hnocut hcut).elim
  | wBit =>
    have hdata : ∃ u : State, u.phase = .wBit ∧ u.idx = s.idx ∧ u.StepsByCell ∧ t = u.afterTxBit := by
      cases hbit : txBit s.txb s.idx with
      | high =>
        rw [State.nextCell_high hdue hp hbit] at hcell
        obtain ⟨j, -, rfl⟩ | ⟨n, hcut⟩ := highCell_next hcell
        · refine ⟨_, ?_, ?_, ?_, rfl⟩
          · simpa using hp
          · simp
          · exact hs.kept (by simp) (by simp) (by simp) (by simp) (by simp)
        · exact (hnocut hcut).elim
      | low =>
        rw [State.nextCell_low hdue hp hbit] at hcell
        obtain ⟨j, -, rfl⟩ | ⟨n, hcut⟩ := lowCell_next hcell
        · refine ⟨_, ?_, ?_, ?_, rfl⟩
          · simpa using hp
          · simp
          · exact hs.kept (by simp) (by simp) (by simp) (by simp) (by simp)
        · exact (hnocut hcut).elim
    obtain ⟨u, hphase, hidx, hu, rfl⟩ := hdata
    exact ⟨(State.afterTxBit_cellsLeft hphase).trans (by simp only [State.cellsLeft, hphase, hp, hidx]),
      fun _ => hu.afterTxBit⟩
  | wStop =>
    rw [State.nextCell_wStop hdue hp] at hcell
    obtain rfl | ⟨n, hcut⟩ := stopCell_next hcell
    · exact ⟨by simp [State.cellsLeft, hp], fun h => by simp [State.cellsLeft] at h⟩
    · exact (hnocut hcut).elim
  | unbound | idle | rPoll | rAlign | rBit | faulted => simp [State.cellsLeft, hp] at hleft

/-- As long as cells are left, steps run them, whatever comes of them. -/
theorem State.StepsByCell.steps_eq_nextCells {k : Nat} {s : State} (hs : s.StepsByCell) (hk : k ≤ s.cellsLeft) :
    steps k s = s.nextCells k := by
  induction k generalizing s with
  | zero => rfl
  | succ k ih =>
    have hleft : s.cellsLeft ≠ 0 := by omega
    simp only [steps, State.nextCells, hs.step_eq_nextCell hleft]
    cases hcell : s.nextCell with
    | next t =>
      obtain ⟨hone, hnext⟩ := hs.next hleft hcell
      cases k with
      | zero => rfl
      | succ k => exact ih (hnext (by omega)) (by omega)
    | fault r => rfl
    | refused r => rfl

/-- Settles O15: ten cells are left at `W_START`. -/
theorem frameIsItsTenCells : Obligations.FrameIsItsTenCells := by
  unfold Obligations.FrameIsItsTenCells
  intro s hp hu hq hw
  rw [exec_frame hp]
  exact State.StepsByCell.steps_eq_nextCells ⟨hu, hq, hw⟩ (by simp [State.cellsLeft, hp])

end Sys2Proof.Machine
end

section
/-! PROOFS. A frame that nothing disturbs, as a whole: when each cell ends, what its operations are, and the state after
it. -/

namespace Sys2Proof.Machine

/-! ### The times of the cells -/

/-- The extra time of the hold that makes the `k`-th draw from now on (spec/43_timing_primitives.md R141). -/
def State.extra (s : State) (k : Nat) : Nat := { s with draws := s.draws + k }.drawn s.plat.jOpen

/-- How long the start cell and the first `k` data cells of a frame that begins now take
(spec/41_transmit.md R106). -/
def State.cellsTime (s : State) : Nat → Nat
  | 0 => s.bp.toNat
  | k + 1 => s.cellsTime k + (s.bp.toNat + s.extra (k + 1))

/-- When the start cell and the first `k` data cells of a frame that begins now are over. -/
def State.cellEnd (s : State) (k : Nat) : Time := s.now + BitVec.ofNat 64 (s.cellsTime k)

theorem State.cellsTime_bounds (s : State) (k : Nat) :
    (k + 1) * s.bp.toNat ≤ s.cellsTime k ∧ s.cellsTime k ≤ (k + 1) * s.bp.toNat + k * s.plat.jOpen := by
  induction k with
  | zero => simp [State.cellsTime]
  | succ k ih =>
    have hextra : s.extra (k + 1) ≤ s.plat.jOpen := State.drawn_le _ _
    rw [State.cellsTime, Nat.succ_mul (k + 1), Nat.succ_mul k s.plat.jOpen]
    omega

theorem State.cellsTime_ideal {s : State} (h : s.Ideal) (k : Nat) : s.cellsTime k = (k + 1) * s.bp.toNat := by
  have hbounds := s.cellsTime_bounds k
  rw [show s.plat.jOpen = 0 from h] at hbounds
  omega

/-- Every cell before the stop cell is over in time for it. -/
theorem State.cellsTime_le (s : State) {k : Nat} (hk : k ≤ 8) :
    s.cellsTime k + s.bp.toNat ≤ 10 * s.bp.toNat + 8 * s.plat.jOpen := by
  have hcells : (k + 1) * s.bp.toNat ≤ 9 * s.bp.toNat := Nat.mul_le_mul_right _ (by omega)
  have hextra : k * s.plat.jOpen ≤ 8 * s.plat.jOpen := Nat.mul_le_mul_right _ hk
  have hbound := (s.cellsTime_bounds k).2
  omega

/-! ### The operations of the cells -/

/-- What a start cell from `t` to `t'` writes down (spec/41_transmit.md R101). -/
def startEvents (t t' : Time) : List PinEvent :=
  [⟨t', .unmask⟩, ⟨t, .setLevel .low⟩, ⟨t, .setDirection .output⟩, ⟨t, .mask⟩]

/-- What a data cell of this level that begins at `t` writes down (spec/41_transmit.md R102, R103). -/
def dataEvents (t : Time) : Level → List PinEvent
  | .high => [⟨t, .unmask⟩, ⟨t, .setLevel .high⟩, ⟨t, .setDirection .output⟩, ⟨t, .mask⟩]
  | .low => [⟨t, .unmask⟩, ⟨t, .setDirection .output⟩, ⟨t, .setLevel .low⟩, ⟨t, .mask⟩]

/-- What a stop cell from `t` to `t'` writes down (spec/41_transmit.md R105). -/
def stopEvents (t t' : Time) : List PinEvent :=
  [⟨t', .unmask⟩, ⟨t', .setLevel .low⟩, ⟨t', .setDirection .input⟩, ⟨t, .setLevel .high⟩, ⟨t, .mask⟩]

/-- What the start cell and the first `k` data cells of a frame that begins now write down. -/
def State.cellEvents (s : State) : Nat → List PinEvent
  | 0 => startEvents s.now (s.cellEnd 0)
  | k + 1 => dataEvents (s.cellEnd k) (frameLevel s.txb (k + 1)) ++ s.cellEvents k

/-- When a frame that begins now ends. -/
def State.frameEnd (s : State) : Time := s.now + BitVec.ofNat 64 (s.cellsTime 8 + s.bp.toNat)

/-- What a frame that begins now writes down. -/
def State.frameEvents (s : State) : List PinEvent := stopEvents (s.cellEnd 8) s.frameEnd ++ s.cellEvents 8

/-! ### The states between the cells -/

/-- The state after the start cell and the first `k` data cells of a frame that begins now. -/
def State.cellsSent (s : State) (k : Nat) : State :=
  { s with
    dir := .output
    olat := frameLevel s.txb k
    im := false
    now := s.cellEnd k
    phase := if k < 8 then .wBit else .wStop
    idx := BitVec.ofNat 4 k
    draws := s.draws + (k + 1)
    trace := s.cellEvents k ++ s.trace }

/-- The state after a frame that begins now. -/
def State.frameSent (s : State) : State :=
  { s with
    dir := .input
    olat := .low
    im := false
    now := s.frameEnd
    phase := .idle
    idx := 8
    rspValid := true
    rspData := 0
    rspErr := .ok
    draws := s.draws + 10
    trace := s.frameEvents ++ s.trace }

theorem ofNat4_toNat {k : Nat} (h : k < 16) : (BitVec.ofNat 4 k).toNat = k := by
  rw [BitVec.toNat_ofNat, Nat.mod_eq_of_lt h]

/-- The bit a data cell transmits has the level of its cell of the frame (spec/30_encoding.md R74, R76). -/
theorem txBit_eq_frameLevel (b : Byte) {k : Nat} (hk : k < 8) :
    txBit b (BitVec.ofNat 4 k) = frameLevel b (k + 1) := by
  rw [txBit, ofNat4_toNat (by omega), ← frameLevel_data_bit b hk, Level.ofBit_bit]

theorem frameLevel_stop (b : Byte) : frameLevel b 9 = .high := (frameCellsOfAByte b).2.2

/-! ### The cells one by one -/

theorem State.waitTime_unmasked {s : State} (h : s.im = false) (d : Nat) :
    s.waitTime d = d + s.drawn s.plat.jOpen := by simp [State.waitTime, h]

/-- A data cell that is over, of either level. -/
def State.dataCellHeld (s : State) (l : Level) : State :=
  { s with
    dir := .output
    olat := l
    im := false
    now := s.now + BitVec.ofNat 64 (s.bp.toNat + s.drawn s.plat.jOpen)
    draws := s.draws + 1
    trace := dataEvents s.now l ++ s.trace }

/-- BITW1 and BITW0 as one: the level of the bit stands on the output pin for the hold. -/
theorem State.nextCell_data {s : State} {l : Level} (hr : s.NoReset) (hp : s.phase = .wBit)
    (hbit : txBit s.txb s.idx = l) (hfree : s.WireFree (s.bp.toNat + s.drawn s.plat.jOpen)) :
    s.nextCell = .next (s.dataCellHeld l).afterTxBit := by
  cases l with
  | high =>
    have hwait : (((s.mask.setDirection .output).setLevel .high).unmask).waitTime s.bp.toNat =
        s.bp.toNat + s.drawn s.plat.jOpen := State.waitTime_unmasked rfl _
    have hheld := State.delay_andThen_free (s := ((s.mask.setDirection .output).setLevel .high).unmask)
      (d := s.bp.toNat) State.afterTxBit hr.2 (by rw [hwait]; exact hfree)
    rw [State.nextCell_high hr.resetDue hp hbit, State.highCell, hheld, hwait]
    simp [State.dataCellHeld, State.advance, dataEvents]
  | low =>
    have hwait : (((s.mask.setLevel .low).setDirection .output).unmask).waitTime s.bp.toNat =
        s.bp.toNat + s.drawn s.plat.jOpen := State.waitTime_unmasked rfl _
    have hheld := State.delay_andThen_free (s := ((s.mask.setLevel .low).setDirection .output).unmask)
      (d := s.bp.toNat) State.afterTxBit hr.2 (by rw [hwait]; exact hfree)
    rw [State.nextCell_low hr.resetDue hp hbit, State.lowCell, hheld, hwait]
    simp [State.dataCellHeld, State.advance, dataEvents]

/-- The start cell. -/
theorem State.nextCell_start {s : State} (hr : s.NoReset) (hp : s.phase = .wStart) (hfree : s.WireFree s.bp.toNat) :
    s.nextCell = .next (s.cellsSent 0) := by
  rw [State.nextCell_wStart hr.resetDue hp, State.startCell_runs hr.2 hfree]
  simp [State.cellsSent, State.enterData, State.cellEnd, State.cellsTime, State.cellEvents, startEvents,
    frameLevel_start]

section
variable {s : State} (hr : s.NoReset) (hc : s.ClockFits (10 * s.bp.toNat + 8 * s.plat.jOpen))
  (hfree : s.WireFree (10 * s.bp.toNat + 8 * s.plat.jOpen))
include hc

/-- The clock fits until the last cell. -/
theorem State.cellEnd_toNat {k : Nat} (hk : k ≤ 8) : (s.cellEnd k).toNat = s.now.toNat + s.cellsTime k := by
  have hle := s.cellsTime_le hk
  exact State.now_add hc (by omega)

include hr hfree

/-- Data cell `k` (spec/30_encoding.md R74). -/
theorem State.nextCell_cellsSent {k : Nat} (hk : k < 8) :
    (s.cellsSent k).nextCell = .next (s.cellsSent (k + 1)) := by
  have hbit : txBit (s.cellsSent k).txb (s.cellsSent k).idx = frameLevel s.txb (k + 1) := txBit_eq_frameLevel _ hk
  have hspan : s.cellsTime k + (s.bp.toNat + s.extra (k + 1)) ≤ 10 * s.bp.toNat + 8 * s.plat.jOpen :=
    (Nat.le_add_right _ _).trans (s.cellsTime_le (k := k + 1) hk)
  have hrest : (s.cellsSent k).WireFree (s.bp.toNat + s.extra (k + 1)) :=
    State.WireFree_later hfree (State.cellEnd_toNat hc hk.le) rfl hspan
  have hend : s.cellEnd k + BitVec.ofNat 64 (s.bp.toNat + s.extra (k + 1)) = s.cellEnd (k + 1) := by
    rw [State.cellEnd, State.cellEnd, State.cellsTime, BitVec.ofNat_add (s.cellsTime k), BitVec.add_assoc]
  have hphase : (if k < 7 then Phase.wBit else .wStop) = if k + 1 < 8 then .wBit else .wStop :=
    if_congr (by omega) rfl rfl
  have hidx : (if k < 7 then BitVec.ofNat 4 k + 1 else 8) = BitVec.ofNat 4 (k + 1) := by
    split
    · exact (BitVec.ofNat_add k 1).symm
    · obtain rfl : k = 7 := by omega
      rfl
  have hheld : ((s.cellsSent k).dataCellHeld (frameLevel s.txb (k + 1))).phase = .wBit := if_pos hk
  rw [State.nextCell_data (s := s.cellsSent k) hr (if_pos hk) hbit hrest,
    State.afterTxBit_at (i := BitVec.ofNat 4 k) hheld rfl, ofNat4_toNat (by omega), hphase, hidx]
  simp only [State.cellsSent, State.dataCellHeld, State.cellEvents, List.append_assoc, Host.Outcome.next.injEq,
    State.mk.injEq, true_and, and_true]
  exact ⟨hend, rfl⟩

/-- The start cell and the data cells one after the other. -/
theorem State.nextCells_cellsSent (hp : s.phase = .wStart) {k : Nat} (hk : k ≤ 8) :
    s.nextCells (k + 1) = .next (s.cellsSent k) := by
  induction k with
  | zero => rw [State.nextCells_one, State.nextCell_start hr hp (State.WireFree_mono hfree (by omega))]
  | succ k ih =>
    rw [State.nextCells_add (k + 1) 1 (ih (by omega)), State.nextCells_one, State.nextCell_cellsSent hr hc hfree hk]

/-- The whole frame (spec/30_encoding.md R74). -/
theorem execFrame_runs (hp : s.phase = .wStart) : exec (.frame s.txb) s = .next s.frameSent := by
  have hrest : (s.cellsSent 8).WireFree s.bp.toNat :=
    State.WireFree_later hfree (State.cellEnd_toNat hc (le_refl 8)) rfl (s.cellsTime_le (le_refl 8))
  have hend : s.cellEnd 8 + BitVec.ofNat 64 s.bp.toNat = s.frameEnd := by
    rw [State.cellEnd, State.frameEnd, BitVec.ofNat_add, BitVec.add_assoc]
  rw [exec_frame hp, State.nextCells_add 9 1 (State.nextCells_cellsSent hr hc hfree hp (le_refl 8)),
    State.nextCells_one, State.nextCell_wStop (State.NoReset.resetDue (s := s.cellsSent 8) hr) rfl,
    State.stopCell_runs (s := s.cellsSent 8) hr.2 hrest]
  simpa [State.frameSent, State.complete, State.respond, State.frameEvents, stopEvents, State.cellsSent] using hend

end

/-! ### How many operations a frame makes (spec/41_transmit.md R111) -/

theorem countOps_dataEvents (kind : OpKind) (t : Time) (l : Level) :
    countOps kind (dataEvents t l) = countOps kind (dataEvents t .low) := by
  cases l <;> cases kind <;> rfl

/-- The data cells make one operation of each kind a cell. -/
theorem State.countOps_cellEvents (s : State) (kind : OpKind) (k : Nat) :
    countOps kind (s.cellEvents k) =
      k * countOps kind (dataEvents 0 .low) + countOps kind (startEvents 0 0) := by
  induction k with
  | zero => cases kind <;> rfl
  | succ k ih =>
    have hdata : countOps kind (dataEvents (s.cellEnd k) .low) = countOps kind (dataEvents 0 .low) := by
      cases kind <;> rfl
    rw [State.cellEvents, countOps_append, ih, countOps_dataEvents, hdata, Nat.succ_mul]
    omega

theorem State.countOps_frameEvents (s : State) (kind : OpKind) :
    countOps kind s.frameEvents = countOps kind (stopEvents 0 0) +
      (8 * countOps kind (dataEvents 0 .low) + countOps kind (startEvents 0 0)) := by
  rw [State.frameEvents, countOps_append, State.countOps_cellEvents]
  cases kind <;> rfl

/-- Settles O14: `frameSent` is the end state, its time that of the ten cells, its operations theirs. -/
theorem frameCompletes : Obligations.FrameCompletes := by
  unfold Obligations.FrameCompletes
  intro s hp hr hc hfree
  have hbounds := s.cellsTime_bounds 8
  refine ⟨s.cellsTime 8 + s.bp.toNat, s.frameEvents, execFrame_runs hr hc hfree hp, by omega, by omega, ?_⟩
  simp only [State.countOps_frameEvents]
  decide

/-! ### A WRITE (spec/41_transmit.md R100) -/

/-- The state in which a WRITE presented at the port begins its start cell. -/
def State.writeBegun (s : State) (byte : Byte) : State :=
  { s with cmdValid := false, rspValid := false, txb := byte, phase := .wStart }

/-- A WRITE stands at the port of an idle configured driver that no reset disturbs, to be run one cell a step. -/
structure State.WritePresented (s : State) (byte : Byte) : Prop where
  idle : s.phase = .idle
  bound : s.bound = true
  configured : s.configured = true
  noReset : s.NoReset
  valid : s.cmdValid = true
  command : Code.cmd s.cmd = encode (.write byte)
  byCell : s.wholeFrame = false

/-- A WRITE at the port of an idle configured driver is accepted. -/
theorem State.WritePresented.step_eq {s : State} {byte : Byte} (h : s.WritePresented byte) :
    step s = .next (s.writeBegun byte) := by
  have hready : s.cmdReady = true := by simp [State.cmdReady, State.busy, h.idle, Phase.inTransfer]
  have hdecode : decode (.cmd s.cmd) = .ok (.write byte) := by rw [h.command, decode_encode]
  rw [step_command h.noReset.resetDue hready h.valid hdecode]
  have hgate : { s with cmdValid := false, rspValid := false }.noTransfer = none :=
    State.noTransfer_none.mpr ⟨h.bound, h.idle, h.configured⟩
  simp only [exec, execWrite, hgate, State.writeBegun]

/-- A WRITE is its acceptance and its frame. -/
theorem State.WritePresented.steps_eq {s : State} {byte : Byte} (h : s.WritePresented byte)
    (hc : s.ClockFits (10 * s.bp.toNat + 8 * s.plat.jOpen))
    (hfree : s.WireFree (10 * s.bp.toNat + 8 * s.plat.jOpen)) :
    steps 11 s = .next (s.writeBegun byte).frameSent := by
  rw [steps_succ h.step_eq, frameIsItsTenCells (s.writeBegun byte) rfl ⟨h.noReset, rfl⟩ rfl h.byCell]
  exact execFrame_runs (s := s.writeBegun byte) h.noReset hc hfree rfl

/-- Settles O16: the frame of the byte follows the acceptance, and neither writes anything else. -/
theorem writeRunsItsTenCells : Obligations.WriteRunsItsTenCells := by
  unfold Obligations.WriteRunsItsTenCells
  intro byte s hp hb hconf hr hv hcmd hw hc hfree
  have hrun := State.WritePresented.steps_eq ⟨hp, hb, hconf, hr, hv, hcmd, hw⟩ hc hfree
  have hbounds : _ ∧ (s.writeBegun byte).cellsTime 8 ≤ 9 * s.bp.toNat + 8 * s.plat.jOpen :=
    (s.writeBegun byte).cellsTime_bounds 8
  have htime : 10 * s.bp.toNat ≤ (s.writeBegun byte).cellsTime 8 + s.bp.toNat ∧
      (s.writeBegun byte).cellsTime 8 + s.bp.toNat ≤ 10 * s.bp.toNat + 8 * s.plat.jOpen := by
    have hlow : 9 * s.bp.toNat ≤ (s.writeBegun byte).cellsTime 8 := hbounds.1
    omega
  exact ⟨_, hrun, ⟨_, htime.1, htime.2, rfl⟩, rfl, rfl, rfl, rfl, rfl, rfl, rfl, rfl, rfl, rfl, rfl, hb, rfl, hconf,
    rfl, rfl, rfl, rfl, rfl, rfl⟩

/-! ### What the wire and the mask are during a frame -/

theorem pinAt_startEvents (before : Dir × Level) {t t' : Time} {u : Nat} (h : t.toNat ≤ u) :
    pinAt before (startEvents t t') u = (.output, .low) := by
  simp [pinAt, startEvents, PinOp.apply, h]

theorem pinAt_dataEvents (before : Dir × Level) {t : Time} {u : Nat} (l : Level) :
    pinAt before (dataEvents t l) u = if t.toNat ≤ u then (.output, l) else before := by
  cases l <;> by_cases h : t.toNat ≤ u <;> simp [pinAt, dataEvents, PinOp.apply, h]

theorem pinAt_stopEvents_during (before : Dir × Level) {t t' : Time} {u : Nat} (h' : u < t'.toNat) :
    pinAt before (stopEvents t t') u = if t.toNat ≤ u then (before.1, .high) else before := by
  by_cases h : t.toNat ≤ u <;> simp [pinAt, stopEvents, PinOp.apply, h, Nat.not_le.mpr h']

/-- A frame that is over has released the pin, its latch Low. -/
theorem pinAt_stopEvents_over (before : Dir × Level) {t t' : Time} {u : Nat} (h' : t'.toNat ≤ u) :
    pinAt before (stopEvents t t') u = (.input, .low) := by
  by_cases h : t.toNat ≤ u <;> simp [pinAt, stopEvents, PinOp.apply, h, h']

theorem maskedAt_startEvents (before : Bool) {t t' : Time} {u : Nat} (h : t.toNat ≤ u) :
    maskedAt before (startEvents t t') u = decide (u < t'.toNat) := by
  by_cases h' : u < t'.toNat
  · simp [maskedAt, startEvents, h, h', Nat.not_le.mpr h']
  · simp [maskedAt, startEvents, h', Nat.not_lt.mp h']

/-- A data cell is masked at no microsecond (spec/43_timing_primitives.md R144). -/
theorem maskedAt_dataEvents (before : Bool) {t : Time} {u : Nat} (l : Level) :
    maskedAt before (dataEvents t l) u = if t.toNat ≤ u then false else before := by
  cases l <;> by_cases h : t.toNat ≤ u <;> simp [maskedAt, dataEvents, h]

theorem maskedAt_stopEvents (before : Bool) {t t' : Time} {u : Nat} (htt : t.toNat ≤ t'.toNat) :
    maskedAt before (stopEvents t t') u = if t.toNat ≤ u then decide (u < t'.toNat) else before := by
  by_cases h' : u < t'.toNat
  · by_cases h : t.toNat ≤ u <;> simp [maskedAt, stopEvents, h, h', Nat.not_le.mpr h']
  · simp [maskedAt, stopEvents, h', Nat.not_lt.mp h', htt.trans (Nat.not_lt.mp h')]

section
variable {s : State} (hi : s.Ideal) (hc : s.ClockFits (10 * s.bp.toNat))
include hi hc

/-- With ideal timing every cell takes one bit-period. -/
theorem State.cellEnd_ideal {k : Nat} (hk : k ≤ 8) : (s.cellEnd k).toNat = s.now.toNat + (k + 1) * s.bp.toNat := by
  have hfits : s.ClockFits (10 * s.bp.toNat + 8 * s.plat.jOpen) := by
    rw [show s.plat.jOpen = 0 from hi]
    exact hc
  rw [State.cellEnd_toNat hfits hk, State.cellsTime_ideal hi]

theorem State.frameEnd_ideal : s.frameEnd.toNat = s.now.toNat + 10 * s.bp.toNat := by
  have htime : s.cellsTime 8 + s.bp.toNat = 10 * s.bp.toNat := by
    rw [State.cellsTime_ideal hi]
    omega
  rw [State.frameEnd, htime]
  exact State.now_add hc (le_refl _)

/-- In cell `m` of the first `k + 1` cells the pin is an output and its latch has the level of the cell. -/
theorem State.pinAt_cellEvents (before : Dir × Level) {k m u : Nat} (hk : k ≤ 8) (hm : m ≤ k)
    (hlo : s.now.toNat + m * s.bp.toNat ≤ u) (hhi : m < k → u < s.now.toNat + (m + 1) * s.bp.toNat) :
    pinAt before (s.cellEvents k) u = (.output, frameLevel s.txb m) := by
  induction k with
  | zero =>
    obtain rfl : m = 0 := by omega
    rw [State.cellEvents, pinAt_startEvents _ (by omega), frameLevel_start]
  | succ k ih =>
    rw [State.cellEvents, pinAt_append, pinAt_dataEvents, State.cellEnd_ideal hi hc (by omega)]
    obtain rfl | hbefore : m = k + 1 ∨ m ≤ k := by omega
    · rw [if_pos hlo]
    · have hnext : (m + 1) * s.bp.toNat ≤ (k + 1) * s.bp.toNat := Nat.mul_le_mul_right _ (by omega)
      have hlate := hhi (by omega)
      rw [if_neg (by omega)]
      exact ih (by omega) hbefore (fun _ => hlate)

/-- In cell `m` of a frame the pin is an output and its latch has the level of the cell. -/
theorem State.pinAt_frameEvents (before : Dir × Level) {m u : Nat} (hm : m < 10)
    (hlo : s.now.toNat + m * s.bp.toNat ≤ u) (hhi : u < s.now.toNat + (m + 1) * s.bp.toNat) :
    pinAt before s.frameEvents u = (.output, frameLevel s.txb m) := by
  have hlast : (m + 1) * s.bp.toNat ≤ 10 * s.bp.toNat := Nat.mul_le_mul_right _ hm
  rw [State.frameEvents, pinAt_append, pinAt_stopEvents_during _ (by rw [State.frameEnd_ideal hi hc]; omega),
    State.cellEnd_ideal hi hc (le_refl 8)]
  obtain rfl | hbefore : m = 9 ∨ m ≤ 8 := by omega
  · rw [if_pos hlo, State.pinAt_cellEvents hi hc before (le_refl 8) (le_refl 8) (by omega) (by omega),
      frameLevel_stop]
  · have hnext : (m + 1) * s.bp.toNat ≤ 9 * s.bp.toNat := Nat.mul_le_mul_right _ (by omega)
    rw [if_neg (by omega)]
    exact State.pinAt_cellEvents hi hc before (le_refl 8) hbefore hlo (fun _ => hhi)

/-- The first `k + 1` cells are masked during the start cell alone. -/
theorem State.maskedAt_cellEvents (before : Bool) {k u : Nat} (hk : k ≤ 8) (hlo : s.now.toNat ≤ u) :
    maskedAt before (s.cellEvents k) u = decide (u < s.now.toNat + s.bp.toNat) := by
  induction k with
  | zero =>
    rw [State.cellEvents, maskedAt_startEvents _ hlo, State.cellEnd_ideal hi hc (by omega), Nat.zero_add, Nat.one_mul]
  | succ k ih =>
    have hfirst : 1 * s.bp.toNat ≤ (k + 1) * s.bp.toNat := Nat.mul_le_mul_right _ (by omega)
    rw [State.cellEvents, maskedAt_append, maskedAt_dataEvents, State.cellEnd_ideal hi hc (by omega), ih (by omega)]
    split
    · exact (decide_eq_false (by omega)).symm
    · rfl

/-- A frame is masked during its start cell and its stop cell alone. -/
theorem State.maskedAt_frameEvents (before : Bool) {u : Nat} (hlo : s.now.toNat ≤ u) :
    maskedAt before s.frameEvents u = true ↔ u < s.now.toNat + s.bp.toNat ∨
      s.now.toNat + 9 * s.bp.toNat ≤ u ∧ u < s.now.toNat + 10 * s.bp.toNat := by
  have hstop := State.cellEnd_ideal hi hc (le_refl 8)
  have hend := State.frameEnd_ideal hi hc
  rw [State.frameEvents, maskedAt_append, maskedAt_stopEvents _ (by omega), hstop, hend,
    State.maskedAt_cellEvents hi hc before (le_refl 8) hlo]
  split <;> rw [decide_eq_true_eq] <;> omega

end

/-- With ideal timing a WRITE runs its frame in ten bit-periods. -/
theorem State.WritePresented.steps_eq_ideal {s : State} {byte : Byte} (h : s.WritePresented byte) (hi : s.Ideal)
    (hc : s.ClockFits (10 * s.bp.toNat)) (hfree : s.WireFree (10 * s.bp.toNat)) :
    steps 11 s = .next (s.writeBegun byte).frameSent := by
  have htime : 10 * s.bp.toNat + 8 * s.plat.jOpen = 10 * s.bp.toNat := by
    rw [show s.plat.jOpen = 0 from hi]
    rfl
  exact h.steps_eq (by rw [htime]; exact hc) (by rw [htime]; exact hfree)

/-- Settles O17: in every cell the latch has the cell's level and reaches the wire, which nobody else drives; after
them the pin is an input. -/
theorem writeWaveform : Obligations.WriteWaveform := by
  unfold Obligations.WriteWaveform
  intro byte s hp hb hconf hr hv hcmd hw hi hpos hc hfree
  have hrun := State.WritePresented.steps_eq_ideal ⟨hp, hb, hconf, hr, hv, hcmd, hw⟩ hi hc hfree
  have hideal : (s.writeBegun byte).Ideal := hi
  refine ⟨_, (s.writeBegun byte).frameEvents, hrun, rfl, fun u hlo hhi => ?_, fun u hover => ?_⟩
  · have hcell : (u - s.now.toNat) / s.bp.toNat < 10 := Nat.div_lt_of_lt_mul (by rw [Nat.mul_comm]; omega)
    have hbegin : s.now.toNat + (u - s.now.toNat) / s.bp.toNat * s.bp.toNat ≤ u := by
      have hquotient := Nat.div_mul_le_self (u - s.now.toNat) s.bp.toNat
      omega
    have hend : u < s.now.toNat + ((u - s.now.toNat) / s.bp.toNat + 1) * s.bp.toNat := by
      have hquotient := Nat.lt_mul_div_succ (u - s.now.toNat) hpos
      rw [Nat.mul_comm] at hquotient
      omega
    have hpin := State.pinAt_frameEvents (s := s.writeBegun byte) hideal hc (s.dir, s.olat) hcell hbegin hend
    have hundriven : (s.plat.env.at u).drives = false := by
      have hspan := (Env.drivenIn_iff s.plat.env s.now.toNat (s.now.toNat + 10 * s.bp.toNat)).not.mp
        (Bool.eq_false_iff.mp hfree)
      exact Bool.eq_false_iff.mpr fun hdriven => hspan ⟨u, hlo, hhi, hdriven⟩
    rw [wireAt, hpin]
    exact wireLevel_output _ hundriven
  · rw [wireAt, State.frameEvents, pinAt_append, pinAt_stopEvents_over]
    · rfl
    · rw [State.frameEnd_ideal (s := s.writeBegun byte) hideal hc]
      exact hover

/-- Settles O18: the mask a frame's operations tell is that of its first and its last cell. -/
theorem writeMasksStartAndStop : Obligations.WriteMasksStartAndStop := by
  unfold Obligations.WriteMasksStartAndStop
  intro byte s hp hb hconf hr hv hcmd hw hi _ _ hc hfree
  have hrun := State.WritePresented.steps_eq_ideal ⟨hp, hb, hconf, hr, hv, hcmd, hw⟩ hi hc hfree
  exact ⟨_, (s.writeBegun byte).frameEvents, hrun, rfl, fun u hlo _ =>
    State.maskedAt_frameEvents (s := s.writeBegun byte) hi hc false hlo⟩

end Sys2Proof.Machine
end

section
/-! PROOFS. Receive: the operations of the eight samples, a READ under preemption, two drivers on one wire, and what no
step of a READ does. -/

namespace Sys2Proof.Machine

/-! ### The samples of a READ with ideal timing -/

/-- What a sample of level `v` at `t` writes down (spec/42_receive.md R125). -/
def sampleEvents (t : Time) (v : Level) : List PinEvent :=
  [⟨t, .unmask⟩, ⟨t, .sample v⟩, ⟨t, .setDirection .input⟩, ⟨t, .mask⟩]

theorem State.sampleTrace_eq (s : State) (v : Level) : s.sampleTrace v = sampleEvents s.now v ++ s.trace := rfl

theorem countOps_sampleEvents (kind : OpKind) (t : Time) (v : Level) :
    countOps kind (sampleEvents t v) = countOps kind (sampleEvents 0 .low) := by cases kind <;> rfl

/-- Every sample that is left makes the operations of one sample. -/
theorem steps_sampling_countOps {n : Nat} {s t : State} (hs : s.Listens) (hp : s.phase = .rBit)
    (hidx : s.idx.toNat + n = 7) (hrun : steps (n + 1) s = .next t) :
    ∃ ev, t.trace = ev ++ s.trace ∧ ∀ kind, countOps kind ev = (n + 1) * countOps kind (sampleEvents 0 .low) := by
  induction n generalizing s with
  | zero =>
    rw [Nat.zero_add, steps_one, step_sample_last hs hp hidx] at hrun
    obtain rfl := Host.Outcome.next.inj hrun
    exact ⟨_, s.sampleTrace_eq _, fun kind => by rw [countOps_sampleEvents, Nat.zero_add, Nat.one_mul]⟩
  | succ n ih =>
    have hmore : s.idx.toNat < 7 := by omega
    rw [steps_succ (step_sample_more hs hp hmore)] at hrun
    obtain ⟨ev, htrace, hcount⟩ := ih hs.sampleTaken hp (by rw [State.sampleTaken_idx hmore]; omega) hrun
    refine ⟨ev ++ sampleEvents s.now (s.plat.env.levelAt s.now.toNat), ?_, fun kind => ?_⟩
    · rw [htrace, List.append_assoc]
      rfl
    · rw [countOps_append, hcount, Nat.succ_mul (n + 1), countOps_sampleEvents kind s.now]

/-- Settles O24: after alignment `RXB` is empty, so that the byte assembled is that of the eight levels. -/
theorem samplesAreOneBitPeriodApart : Obligations.SamplesAreOneBitPeriodApart := by
  unfold Obligations.SamplesAreOneBitPeriodApart
  intro s hp hu hi hd _ hrxb hbp hc
  have haligned : s.aligned.Listens := ⟨hu, hi, hd⟩
  have hnow : s.aligned.now.toNat = s.now.toNat + (s.bp.toNat + s.bp.toNat / 2) := State.now_add hc (by omega)
  have hfits : s.aligned.ClockFits (8 * s.bp.toNat) := State.ClockFits_later hc hnow (by omega)
  obtain ⟨byte, draws, trace, hbyte, hrun⟩ := steps_sampling (n := 7) haligned rfl rfl hfits
  obtain ⟨ev, htrace, hcount⟩ := steps_sampling_countOps haligned rfl rfl hrun
  refine ⟨_, (steps_succ (step_align ⟨hu, hi, hd⟩ hp hbp)).trans hrun, rfl, fun i hlt => ?_, rfl, rfl, rfl, rfl, ?_,
    rfl, rfl, rfl, rfl, rfl, rfl, rfl, rfl, rfl, ev, htrace, ?_⟩
  · refine (hbyte i hlt).trans ?_
    rw [hnow]
    simp [State.aligned, hrxb]
  · refine (State.now_add hfits (le_refl _)).trans ?_
    omega
  · simp only [hcount]
    decide

/-! ### A READ under preemption (spec/70_reset_and_hazards.md R201) -/

/-- A sample before the last, its hold over after `n` microseconds. -/
def State.sampleHeld (s : State) (n : Nat) : State :=
  { s.sampleTaken with now := s.now + BitVec.ofNat 64 n }

/-- One sample with its extra time, put together from BITR and the accumulation. -/
theorem step_sample_within {s : State} (hu : s.Undisturbed) (hp : s.phase = .rBit) :
    ∃ j, j ≤ s.plat.jOpen ∧ step s = .next (((s.endPulse.mask.setDirection .input).sampled.unmask.countDraw.advance
      (s.bp.toNat + j)).afterRxBit (s.plat.env.levelAt s.now.toNat)) := by
  obtain ⟨j, hj, hwait⟩ := s.endPulse.unmask.waitTime_eq_add s.bp.toNat
  refine ⟨j, hj, ?_⟩
  rw [step_rBit hu hp, State.sampleCell_runs (s := s.endPulse) hu.rstAt, ← hwait]
  rfl

theorem step_sample_more_within {s : State} (hu : s.Undisturbed) (hp : s.phase = .rBit) (hidx : s.idx.toNat < 7) :
    ∃ j, j ≤ s.plat.jOpen ∧ step s = .next (s.sampleHeld (s.bp.toNat + j)) := by
  obtain ⟨j, hj, hstep⟩ := step_sample_within hu hp
  refine ⟨j, hj, ?_⟩
  rw [hstep, State.afterRxBit_more _ (by simpa using hidx)]
  simp [State.sampleHeld, State.sampleTaken, State.sampleTrace]

theorem step_sample_last_within {s : State} (hu : s.Undisturbed) (hp : s.phase = .rBit) (hidx : s.idx.toNat = 7) :
    ∃ j, j ≤ s.plat.jOpen ∧ step s = .next (s.readAnswered (s.bp.toNat + j)
      (rxInsert s.rxb (s.plat.env.levelAt s.now.toNat) s.idx) (s.draws + 1)
      (s.sampleTrace (s.plat.env.levelAt s.now.toNat))) := by
  obtain ⟨j, hj, hstep⟩ := step_sample_within hu hp
  refine ⟨j, hj, ?_⟩
  rw [hstep, State.afterRxBit_last _ (by simpa using hidx.ge)]
  simp [State.readAnswered, State.sampleTrace, State.complete, State.respond]

/-- `RXB` holds the bits of `byte` below `n` and nothing else (spec/30_encoding.md R77). -/
def State.HoldsBitsBelow (s : State) (byte : Byte) (n : Nat) : Prop :=
  ∀ j, j < 8 → s.rxb.getLsbD j = (decide (j < n) && byte.getLsbD j)

/-- A sample of the right bit puts it in its place. -/
theorem State.HoldsBitsBelow.insert {s : State} {byte : Byte} (h : s.HoldsBitsBelow byte s.idx.toNat) {v : Level}
    (hv : v.bit = byte.getLsbD s.idx.toNat) {j : Nat} (hj : j < 8) :
    (rxInsert s.rxb v s.idx).getLsbD j = (decide (j < s.idx.toNat + 1) && byte.getLsbD j) := by
  rw [rxInsert_getLsbD _ _ _ hj, h j hj]
  rcases lt_trichotomy j s.idx.toNat with hlt | rfl | hgt
  · simp [hlt, hlt.ne, Nat.lt_succ_of_lt hlt]
  · simp [hv]
  · simp [hgt.ne', hgt.not_gt, Nat.not_lt.mpr (Nat.succ_le_of_lt hgt)]

/-- The sample due at `now` meets its own data cell of the frame that began at `te`, and so will the `n` after it,
whatever their extra times. -/
structure State.OnTime (s : State) (te n : Nat) : Prop where
  notEarly : te + (s.idx.toNat + 1) * s.bp.toNat ≤ s.now.toNat
  notLate : s.now.toNat + n * s.plat.jOpen < te + (s.idx.toNat + 2) * s.bp.toNat

/-- A sample on time reads its bit. -/
theorem State.OnTime.level {s : State} {te n : Nat} {byte : Byte} (h : s.OnTime te n)
    (hsends : s.plat.env.Sends byte te s.bp.toNat) (hidx : s.idx.toNat ≤ 7) :
    (s.plat.env.levelAt s.now.toNat).bit = byte.getLsbD s.idx.toNat := by
  obtain ⟨hearly, hlate⟩ := h
  obtain ⟨d, hd⟩ := Nat.exists_eq_add_of_le hearly
  have hcell : (s.idx.toNat + 2) * s.bp.toNat = (s.idx.toNat + 1) * s.bp.toNat + s.bp.toNat := Nat.succ_mul _ _
  rw [hd, Nat.add_assoc, hsends.levelAt_cell (by omega) (by omega), frameLevel_data_bit _ (by omega)]

/-- After a hold with its extra time the next sample is on time. -/
theorem State.OnTime.next {s t : State} {te n j : Nat} (h : s.OnTime te (n + 1)) (hj : j ≤ s.plat.jOpen)
    (hnow : t.now.toNat = s.now.toNat + (s.bp.toNat + j)) (hidx : t.idx.toNat = s.idx.toNat + 1)
    (hbp : t.bp = s.bp) (hplat : t.plat = s.plat) : t.OnTime te n := by
  obtain ⟨hearly, hlate⟩ := h
  have hspan : (n + 1) * s.plat.jOpen = n * s.plat.jOpen + s.plat.jOpen := Nat.succ_mul _ _
  have hfirst : (s.idx.toNat + 1 + 1) * s.bp.toNat = (s.idx.toNat + 1) * s.bp.toNat + s.bp.toNat := Nat.succ_mul _ _
  have hnext : (s.idx.toNat + 1 + 2) * s.bp.toNat = (s.idx.toNat + 2) * s.bp.toNat + s.bp.toNat := Nat.succ_mul _ _
  constructor
  · rw [hnow, hidx, hbp]
    omega
  · rw [hnow, hidx, hbp, hplat]
    omega

/-- Whatever the extra times, samples on time answer the byte of the frame. -/
theorem steps_sampling_onTime {byte : Byte} {te n : Nat} {s : State} (hu : s.Undisturbed) (hp : s.phase = .rBit)
    (hidx : s.idx.toNat + n = 7) (hrxb : s.HoldsBitsBelow byte s.idx.toNat) (htime : s.OnTime te n)
    (hsends : s.plat.env.Sends byte te s.bp.toNat) (hc : s.ClockFits ((n + 1) * (s.bp.toNat + s.plat.jOpen))) :
    ∃ d draws trace, (n + 1) * s.bp.toNat ≤ d ∧ d ≤ (n + 1) * (s.bp.toNat + s.plat.jOpen) ∧
      steps (n + 1) s = .next (s.readAnswered d byte draws trace) := by
  have hlevel := htime.level hsends (by omega)
  induction n generalizing s with
  | zero =>
    obtain ⟨j, hj, hlast⟩ := step_sample_last_within hu hp hidx
    have hanswer : rxInsert s.rxb (s.plat.env.levelAt s.now.toNat) s.idx = byte := by
      refine BitVec.eq_of_getLsbD_eq fun i hi => ?_
      rw [hrxb.insert hlevel hi, decide_eq_true (by omega), Bool.true_and]
    rw [hanswer] at hlast
    exact ⟨_, _, _, by omega, by omega, (steps_one s).trans hlast⟩
  | succ n ih =>
    have hmore : s.idx.toNat < 7 := by omega
    obtain ⟨j, hj, hstep⟩ := step_sample_more_within hu hp hmore
    have hsplit : (n + 1 + 1) * (s.bp.toNat + s.plat.jOpen) =
        s.bp.toNat + s.plat.jOpen + (n + 1) * (s.bp.toNat + s.plat.jOpen) := by
      rw [Nat.succ_mul, Nat.add_comm]
    have hnow : (s.sampleHeld (s.bp.toNat + j)).now.toNat = s.now.toNat + (s.bp.toNat + j) :=
      State.now_add hc (by omega)
    have hnext : (s.sampleHeld (s.bp.toNat + j)).idx.toNat = s.idx.toNat + 1 := State.sampleTaken_idx hmore
    have htime' : (s.sampleHeld (s.bp.toNat + j)).OnTime te n := htime.next hj hnow hnext rfl rfl
    have hrxb' : (s.sampleHeld (s.bp.toNat + j)).HoldsBitsBelow byte (s.sampleHeld (s.bp.toNat + j)).idx.toNat := by
      rw [hnext]
      exact fun i hi => hrxb.insert hlevel hi
    obtain ⟨d, draws, trace, hlow, hhigh, hrun⟩ := ih (s := s.sampleHeld (s.bp.toNat + j)) hu hp (by omega) hrxb'
      htime' hsends (State.ClockFits_later (m := (n + 1) * (s.bp.toNat + s.plat.jOpen)) hc hnow (by omega))
      (htime'.level hsends (by omega))
    have hlow' : (n + 1) * s.bp.toNat ≤ d := hlow
    have hhigh' : d ≤ (n + 1) * (s.bp.toNat + s.plat.jOpen) := hhigh
    refine ⟨s.bp.toNat + j + d, draws, trace, by rw [Nat.succ_mul (n + 1)]; omega, by omega, ?_⟩
    rw [steps_succ hstep, hrun]
    simp only [State.readAnswered, State.sampleHeld, State.sampleTaken, BitVec.ofNat_add, BitVec.add_assoc]

/-- The state in which an alignment of `n` microseconds is over. -/
def State.alignedAfter (s : State) (n : Nat) : State := { s.aligned with now := s.now + BitVec.ofNat 64 n }

/-- Alignment with its extra time (spec/42_receive.md R124). -/
theorem step_align_within {s : State} (hu : s.Undisturbed) (hp : s.phase = .rAlign) (hd : s.dir = .input)
    (hbp : s.bp.toNat ≤ 1000000) :
    ∃ j, j ≤ s.plat.jOpen ∧ step s = .next (s.alignedAfter (s.bp.toNat + s.bp.toNat / 2 + j)) := by
  obtain ⟨j, hj, hwait⟩ := s.endPulse.waitTime_eq_add (s.bp.toNat + s.bp.toNat / 2)
  refine ⟨j, hj, ?_⟩
  rw [step_rAlign hu hp, State.alignCell_runs (s := s.endPulse) hu.rstAt hd, State.endPulse_bp, alignDelay_toNat hbp,
    hwait]
  rfl

/-- Settles O28: the budget puts the first sample, and with the extra times of the seven holds before it the last one,
into its own data cell. -/
theorem preemptedReadWithinBudget : Obligations.PreemptedReadWithinBudget := by
  unfold Obligations.PreemptedReadWithinBudget
  intro byte te s hp hu hd _ hrxb hbp hte hbudget hc hsends
  obtain ⟨j, hj, hstep⟩ := step_align_within hu hp hd hbp
  have hnow : (s.alignedAfter (s.bp.toNat + s.bp.toNat / 2 + j)).now.toNat =
      s.now.toNat + (s.bp.toNat + s.bp.toNat / 2 + j) := State.now_add hc (by omega)
  have htime : (s.alignedAfter (s.bp.toNat + s.bp.toNat / 2 + j)).OnTime te 7 := by
    have hearly : te + (0 + 1) * s.bp.toNat ≤ s.now.toNat + (s.bp.toNat + s.bp.toNat / 2 + j) := by omega
    have hlate : s.now.toNat + (s.bp.toNat + s.bp.toNat / 2 + j) + 7 * s.plat.jOpen < te + (0 + 2) * s.bp.toNat := by
      omega
    exact ⟨hnow ▸ hearly, hnow ▸ hlate⟩
  have hempty : (s.alignedAfter (s.bp.toNat + s.bp.toNat / 2 + j)).HoldsBitsBelow byte 0 := by
    intro i _
    simp [State.alignedAfter, State.aligned, hrxb]
  have hfits : (s.alignedAfter (s.bp.toNat + s.bp.toNat / 2 + j)).ClockFits (8 * (s.bp.toNat + s.plat.jOpen)) :=
    State.ClockFits_later hc hnow (by omega)
  obtain ⟨d, draws, trace, hlow, hhigh, hrun⟩ :=
    steps_sampling_onTime (n := 7) (s := s.alignedAfter (s.bp.toNat + s.bp.toNat / 2 + j)) hu rfl rfl hempty htime
      hsends hfits
  have hlow' : 8 * s.bp.toNat ≤ d := hlow
  have hhigh' : d ≤ 8 * (s.bp.toNat + s.plat.jOpen) := hhigh
  have hend := (State.now_add hfits hhigh).trans (congrArg (· + d) hnow)
  refine ⟨_, (steps_succ hstep).trans hrun, rfl, rfl, rfl, rfl, ?_, ?_⟩
  · exact le_of_le_of_eq (by omega) hend.symm
  · exact le_of_eq_of_le hend (by omega)

/-! ### Two drivers on one wire (spec/95_test_vectors.md S2, P4) -/

/-- Settles O29: the wire that the WRITE makes is a frame sent to the READ. -/
theorem roundTripOfTwoDrivers : Obligations.RoundTripOfTwoDrivers := by
  unfold Obligations.RoundTripOfTwoDrivers
  intro byte a b ha hab hac har hav hacmd haw hai hafits hafree hb hbb hbc hbr hbv hbcmd hbi hbd hbm hbp hpos hmax
    hbfits hfrom hto
  obtain ⟨a', ev, hwrite, htrace, hwave, -⟩ :=
    writeWaveform byte a ha hab hac har hav hacmd haw hai hpos hafits hafree
  refine ⟨a', ev, hwrite, htrace, fun hhigh hwire => ?_⟩
  have hsends : b.plat.env.Sends byte a.now.toNat b.bp.toNat := by
    rw [hbp]
    exact fun u hlo hhi => (hwire u hlo hhi).trans (hwave u hlo hhi)
  rw [← hbp] at hpos hmax hbfits hto
  obtain ⟨k, b', hread, hidle, hvalid, hdata, -, -, hflag, -⟩ :=
    peerFrameIsReceived byte a.now.toNat b hb hbb hbc hbr hbv hbcmd hbi hbd hbm hpos hmax hfrom hto hbfits hhigh hsends
  exact ⟨k, b', hread, hidle, hvalid, hdata, hflag⟩

/-! ### No step of a READ drives the wire (spec/42_receive.md R132) -/

/-- An operation a receiver may perform: none that drives the wire or writes the latch. -/
def PinEvent.Passive (e : PinEvent) : Prop := e.op ≠ .setDirection .output ∧ ∀ l, e.op ≠ .setLevel l

/-- Latch and input direction are kept, and every operation is passive. -/
def State.ListensOnly (s t : State) : Prop :=
  t.olat = s.olat ∧ (s.dir = .input → t.dir = .input) ∧ ∃ ev, t.trace = ev ++ s.trace ∧ ∀ e ∈ ev, e.Passive

theorem State.afterRxBit_listensOnly {s t : State} (v : Level) (h : s.ListensOnly t) :
    s.ListensOnly (t.afterRxBit v) := by
  rw [State.afterRxBit_eq]
  split
  · exact h
  · exact h

theorem execRead_listensOnly {s t : State} (h : execRead s = .next t) : s.ListensOnly t := by
  obtain ⟨-, -, -, rfl⟩ := execRead_next h
  exact ⟨rfl, id, [], rfl, by simp⟩

theorem pollTurn_listensOnly {s t : State} (hr : s.rstAt = []) (h : s.pollTurn = .next t) : s.ListensOnly t := by
  have hsample : ∀ l, (⟨s.now, .sample l⟩ : PinEvent).Passive := fun l => ⟨by simp, by simp⟩
  obtain ⟨-, rfl⟩ | ⟨-, -, rfl⟩ | ⟨-, -, j, -, rfl⟩ | ⟨n, hcut, -⟩ := pollTurn_next h
  · exact ⟨rfl, id, [_], rfl, by simpa using hsample _⟩
  · exact ⟨rfl, id, [_], rfl, by simpa using hsample _⟩
  · exact ⟨rfl, id, [_], rfl, by simpa using hsample _⟩
  · exact absurd hr hcut

theorem alignCell_listensOnly {s t : State} (hr : s.rstAt = []) (h : s.alignCell = .next t) : s.ListensOnly t := by
  obtain ⟨j, -, rfl⟩ | ⟨n, hcut, -⟩ := alignCell_next h
  · exact ⟨rfl, id, [], rfl, by simp⟩
  · exact absurd hr hcut

theorem sampleCell_listensOnly {s t : State} (hr : s.rstAt = []) (h : s.sampleCell = .next t) : s.ListensOnly t := by
  obtain ⟨j, -, rfl⟩ | ⟨n, hcut, -⟩ := sampleCell_next h
  · refine State.afterRxBit_listensOnly _ ⟨rfl, fun _ => rfl, sampleEvents s.now _, rfl, ?_⟩
    simp [sampleEvents, PinEvent.Passive]
  · exact absurd hr hcut

/-- Settles O30: READ, POLL, ALIGN and BITR each only listen. -/
theorem readNeverDrives : Obligations.ReadNeverDrives := by
  unfold Obligations.ReadNeverDrives
  rintro i s t (rfl | rfl | rfl | rfl) hr h
  · exact execRead_listensOnly h
  · exact pollTurn_listensOnly hr (State.inPhase_next h).2
  · exact alignCell_listensOnly hr (State.inPhase_next h).2
  · exact sampleCell_listensOnly hr (State.inPhase_next h).2

end Sys2Proof.Machine
end

section
/-! PROOFS. What no micro-operation writes, how long each can take, and with it the registers' writers, the parameters
and the clock. -/

namespace Sys2Proof.Machine

/-! ### What a cell carries over -/

/-- What no micro-operation writes. -/
structure State.Carries (s t : State) : Prop where
  pin : t.pin = s.pin
  bound : t.bound = s.bound
  bp : t.bp = s.bp
  configured : t.configured = s.configured
  txb : t.txb = s.txb
  t0 : t.t0 = s.t0
  cfgf : t.cfgf = s.cfgf
  rst : t.rst = s.rst
  rstAt : t.rstAt = s.rstAt
  plat : t.plat = s.plat

theorem State.Carries.refl (s : State) : s.Carries s := ⟨rfl, rfl, rfl, rfl, rfl, rfl, rfl, rfl, rfl, rfl⟩

theorem State.Carries.trans {s t u : State} (h : s.Carries t) (h' : t.Carries u) : s.Carries u :=
  ⟨h'.pin.trans h.pin, h'.bound.trans h.bound, h'.bp.trans h.bp, h'.configured.trans h.configured,
    h'.txb.trans h.txb, h'.t0.trans h.t0, h'.cfgf.trans h.cfgf, h'.rst.trans h.rst, h'.rstAt.trans h.rstAt,
    h'.plat.trans h.plat⟩

/-- A reset, which only a state with one to come or standing meets, has left the block as after reset. -/
structure State.IsCutTo (s t : State) : Prop where
  reset : ¬s.NoReset
  after : t.AsAfterReset
  plat : t.plat = s.plat

/-- What comes of a micro-operation that gives a next state. -/
def State.CarriesOrCut (s t : State) : Prop := s.Carries t ∨ s.IsCutTo t

theorem State.CarriesOrCut.plat {s t : State} (h : s.CarriesOrCut t) : t.plat = s.plat := by
  rcases h with h | h
  · exact h.plat
  · exact h.plat

theorem State.Carries.noReset_iff {s t : State} (h : s.Carries t) : t.NoReset ↔ s.NoReset := by
  rw [State.NoReset, State.NoReset, h.rst, h.rstAt]

theorem State.CarriesOrCut.carries {s t : State} (h : s.CarriesOrCut t) (hr : s.NoReset) : s.Carries t :=
  h.resolve_right fun hcut => hcut.reset hr

/-- A wait cut by a reset, whatever was done before it. -/
theorem State.isCutTo_takeReset {s u : State} (hr : s.rstAt ≠ []) (hplat : u.plat = s.plat) :
    s.IsCutTo u.takeReset := ⟨fun h => hr h.2, u.takeReset_asAfterReset, hplat⟩

/-- A data cell that is over writes its position alone. -/
theorem State.afterTxBit_eq (s : State) : ∃ i p, s.afterTxBit = { s with idx := i, phase := p } := by
  unfold State.afterTxBit
  split
  · exact ⟨_, s.phase, rfl⟩
  · exact ⟨_, _, rfl⟩

theorem State.afterTxBit_carries (s : State) : s.Carries s.afterTxBit := by
  obtain ⟨i, p, h⟩ := s.afterTxBit_eq
  rw [h]
  constructor <;> rfl

theorem State.afterRxBit_carries (s : State) (v : Level) : s.Carries (s.afterRxBit v) := by
  rw [State.afterRxBit_eq]
  split <;> constructor <;> rfl

theorem startCell_carries {s t : State} (h : s.startCell = .next t) : s.CarriesOrCut t := by
  obtain rfl | ⟨n, hr, -, rfl⟩ := startCell_next h
  · left; constructor <;> simp
  · exact .inr (State.isCutTo_takeReset hr (by simp))

theorem highCell_carries {s t : State} (h : s.highCell = .next t) : s.CarriesOrCut t := by
  obtain ⟨j, -, rfl⟩ | ⟨n, hr, -, rfl⟩ := highCell_next h
  · refine .inl (State.Carries.trans ?_ (State.afterTxBit_carries _))
    constructor <;> simp
  · exact .inr (State.isCutTo_takeReset hr (by simp))

theorem lowCell_carries {s t : State} (h : s.lowCell = .next t) : s.CarriesOrCut t := by
  obtain ⟨j, -, rfl⟩ | ⟨n, hr, -, rfl⟩ := lowCell_next h
  · refine .inl (State.Carries.trans ?_ (State.afterTxBit_carries _))
    constructor <;> simp
  · exact .inr (State.isCutTo_takeReset hr (by simp))

theorem stopCell_carries {s t : State} (h : s.stopCell = .next t) : s.CarriesOrCut t := by
  obtain rfl | ⟨n, hr, -, rfl⟩ := stopCell_next h
  · left; constructor <;> simp
  · exact .inr (State.isCutTo_takeReset hr (by simp))

theorem pollTurn_carries {s t : State} (h : s.pollTurn = .next t) : s.CarriesOrCut t := by
  obtain ⟨-, rfl⟩ | ⟨-, -, rfl⟩ | ⟨-, -, j, -, rfl⟩ | ⟨n, hr, -, rfl⟩ := pollTurn_next h
  · left; constructor <;> simp
  · left; constructor <;> simp
  · left; constructor <;> simp
  · exact .inr (State.isCutTo_takeReset hr (by simp))

theorem alignCell_carries {s t : State} (h : s.alignCell = .next t) : s.CarriesOrCut t := by
  obtain ⟨j, -, rfl⟩ | ⟨n, hr, -, rfl⟩ := alignCell_next h
  · left; constructor <;> simp
  · exact .inr (State.isCutTo_takeReset hr (by simp))

theorem sampleCell_carries {s t : State} (h : s.sampleCell = .next t) : s.CarriesOrCut t := by
  obtain ⟨j, -, rfl⟩ | ⟨n, hr, -, rfl⟩ := sampleCell_next h
  · refine .inl (State.Carries.trans ?_ (State.afterRxBit_carries _ _))
    constructor <;> simp
  · exact .inr (State.isCutTo_takeReset hr (by simp))

theorem State.isCutTo_underReset {s : State} (h : s.resetDue = true) : s.IsCutTo s.underReset := by
  obtain ⟨-, -, -, -, -, -, -, -, -, -, hplat, -⟩ := s.underReset_frame
  exact ⟨fun hr => by simp [hr.resetDue] at h, s.underReset_asAfterReset, hplat⟩

theorem nextCell_carries {s t : State} (h : s.nextCell = .next t) : s.CarriesOrCut t := by
  rcases nextCell_next h with ⟨-, hr, rfl⟩ | ⟨-, h⟩ | ⟨-, h⟩ | ⟨-, h⟩ | ⟨-, h⟩ | rfl
  · exact .inr (State.isCutTo_underReset hr)
  · exact startCell_carries h
  · exact highCell_carries h
  · exact lowCell_carries h
  · exact stopCell_carries h
  · exact .inl (State.Carries.refl _)

/-- A reset ends the frame: the cells after it do nothing. -/
theorem nextCells_unbound {k : Nat} {s t : State} (hp : s.phase = .unbound) (h : s.nextCells k = .next t) : t = s := by
  induction k with
  | zero => exact (Host.Outcome.next.inj h).symm
  | succ k ih =>
    rw [State.nextCells_succ (State.nextCell_unbound hp)] at h
    exact ih h

theorem nextCells_carries {k : Nat} {s t : State} (h : s.nextCells k = .next t) : s.CarriesOrCut t := by
  induction k generalizing s with
  | zero =>
    obtain rfl := Host.Outcome.next.inj h
    exact .inl (State.Carries.refl _)
  | succ k ih =>
    cases hcell : s.nextCell with
    | next u =>
      rw [State.nextCells_succ hcell] at h
      rcases nextCell_carries hcell with hover | hcut
      · rcases ih h with hrest | hrest
        · exact .inl (hover.trans hrest)
        · exact .inr ⟨mt hover.noReset_iff.mpr hrest.reset, hrest.after, hrest.plat.trans hover.plat⟩
      · obtain rfl := nextCells_unbound hcut.after.1 h
        exact .inr hcut
    | fault r => simp [State.nextCells, hcell] at h
    | refused r => simp [State.nextCells, hcell] at h

/-- The four commands of the caller (spec/30_encoding.md R70). -/
def IsCommand (i : Instr) : Prop :=
  (∃ pin, i = .bind pin) ∨ (∃ baud, i = .configure baud) ∨ (∃ byte, i = .write byte) ∨ i = .read

/-- Every instruction that gives a next state is a command or carries over, unless a reset cuts it. -/
theorem exec_carries {i : Instr} {s t : State} (h : exec i s = .next t) : IsCommand i ∨ s.CarriesOrCut t := by
  rcases exec_next h with ⟨pin, rfl, -⟩ | ⟨baud, rfl, -⟩ | ⟨byte, rfl, -⟩ | ⟨rfl, -⟩ | ⟨byte, -, -, -, h⟩ | ⟨-, -, h⟩ |
    ⟨-, -, h⟩ | ⟨-, -, h⟩ | ⟨-, -, h⟩ | ⟨-, -, h⟩ | ⟨-, -, h⟩ | ⟨-, -, h⟩
  · exact .inl (.inl ⟨pin, rfl⟩)
  · exact .inl (.inr (.inl ⟨baud, rfl⟩))
  · exact .inl (.inr (.inr (.inl ⟨byte, rfl⟩)))
  · exact .inl (.inr (.inr (.inr rfl)))
  · exact .inr (nextCells_carries h)
  · exact .inr (startCell_carries h)
  · exact .inr (highCell_carries h)
  · exact .inr (lowCell_carries h)
  · exact .inr (stopCell_carries h)
  · exact .inr (pollTurn_carries h)
  · exact .inr (alignCell_carries h)
  · exact .inr (sampleCell_carries h)

/-- What no command writes, whatever it answers. -/
theorem exec_command_keeps {i : Instr} {s t : State} (hi : IsCommand i) (h : exec i s = .next t) :
    t.plat = s.plat ∧ t.now = s.now ∧ t.rst = s.rst ∧ t.rstAt = s.rstAt := by
  rcases hi with ⟨pin, rfl⟩ | ⟨baud, rfl⟩ | ⟨byte, rfl⟩ | rfl
  · obtain ⟨-, -, ⟨-, rfl⟩ | ⟨-, -, rfl⟩⟩ := execBind_next h <;> simp
  · obtain ⟨-, -, -, -, rfl⟩ := execConfigure_next h
    simp
  · obtain ⟨-, -, -, rfl⟩ := execWrite_next h
    simp
  · obtain ⟨-, -, -, rfl⟩ := execRead_next h
    simp

/-- The state in which an instruction runs: the response pulse is over, and a command may have been taken from the port
or from the caller's program (spec/20_memory.md R62). -/
def State.taken (s : State) (valid : Bool) (rest : List Issue) : State :=
  { s with rspValid := false, cmdValid := valid, program := rest }

/-- A step that gives a next state is the reset's, an instruction's, or a microsecond's. -/
theorem step_next_exec {s t : State} (h : step s = .next t) :
    (s.resetDue = true ∧ t = s.underReset) ∨
    (s.resetDue = false ∧ ∃ i valid rest, exec i (s.taken valid rest) = .next t) ∨
    (s.resetDue = false ∧ t = s.tick) := by
  rcases step_next h with h | ⟨hr, i, -, h⟩ | ⟨hr, -, -, w, i, u, -, rfl | ⟨rest, rfl⟩, h⟩ | ⟨hr, -, h⟩
  · exact .inl h
  · exact .inr (.inl ⟨hr, i, s.cmdValid, s.program, h⟩)
  · exact .inr (.inl ⟨hr, i, false, s.program, h⟩)
  · exact .inr (.inl ⟨hr, i, s.cmdValid, rest, h⟩)
  · exact .inr (.inr ⟨hr, h⟩)

/-! ### The parameters (spec/10_state.md R31) -/

theorem exec_plat {i : Instr} {s t : State} (h : exec i s = .next t) : t.plat = s.plat := by
  rcases exec_carries h with hi | hcell
  · exact (exec_command_keeps hi h).1
  · exact hcell.plat

/-- Settles O35: neither a reset, an instruction nor a microsecond that passes writes them. -/
theorem parametersAreNeverWritten : Obligations.ParametersAreNeverWritten := by
  unfold Obligations.ParametersAreNeverWritten
  intro s t h
  rcases step_next_exec h with ⟨hr, rfl⟩ | ⟨-, i, valid, rest, h⟩ | ⟨-, rfl⟩
  · exact (State.isCutTo_underReset hr).plat
  · exact exec_plat (s := s.taken valid rest) h
  · rfl

/-! ### The clock (spec/43_timing_primitives.md R147) -/

/-- From `s` to `t` at most `n` microseconds have passed. -/
def State.Within (s t : State) (n : Nat) : Prop := ∃ d, d ≤ n ∧ t.now = s.now + BitVec.ofNat 64 d

theorem State.within_of_now {s t : State} (n : Nat) (h : t.now = s.now) : s.Within t n :=
  ⟨0, Nat.zero_le _, h.trans (BitVec.add_zero _).symm⟩

theorem State.Within.trans {s t u : State} {m n : Nat} (h : s.Within t m) (h' : t.Within u n) :
    s.Within u (m + n) := by
  obtain ⟨d, hd, ht⟩ := h
  obtain ⟨e, he, hu⟩ := h'
  exact ⟨d + e, Nat.add_le_add hd he, by rw [hu, ht, BitVec.ofNat_add, BitVec.add_assoc]⟩

theorem State.Within.mono {s t : State} {m n : Nat} (h : s.Within t m) (hmn : m ≤ n) : s.Within t n := by
  obtain ⟨d, hd, ht⟩ := h
  exact ⟨d, hd.trans hmn, ht⟩

/-- The longest wait: a duration is a 32-bit word, and the extra time is at most `J_OPEN`. -/
def State.longestWait (s : State) : Nat := 2 ^ 32 + s.plat.jOpen

theorem State.le_longestWait (s : State) {w : Word32} {n : Nat} (h : n ≤ w.toNat + s.plat.jOpen) :
    n ≤ s.longestWait := by
  have := w.isLt
  unfold State.longestWait
  omega

theorem startCell_within {s t : State} (h : s.startCell = .next t) : s.Within t s.longestWait := by
  obtain rfl | ⟨n, -, hn, rfl⟩ := startCell_next h
  · exact ⟨s.bp.toNat, s.le_longestWait (Nat.le_add_right _ _), by simp⟩
  · exact ⟨n, s.le_longestWait (hn.trans (Nat.le_add_right _ _)), by simp⟩

theorem State.afterTxBit_now (s : State) : s.afterTxBit.now = s.now := by
  obtain ⟨i, p, h⟩ := s.afterTxBit_eq
  rw [h]

theorem State.afterRxBit_now (s : State) (v : Level) : (s.afterRxBit v).now = s.now := by
  rw [State.afterRxBit_eq]
  split <;> rfl

theorem highCell_within {s t : State} (h : s.highCell = .next t) : s.Within t s.longestWait := by
  obtain ⟨j, hj, rfl⟩ | ⟨n, -, hn, rfl⟩ := highCell_next h
  · exact ⟨_, s.le_longestWait (Nat.add_le_add_left hj _), by rw [State.afterTxBit_now]; rfl⟩
  · exact ⟨n, s.le_longestWait hn, by simp⟩

theorem lowCell_within {s t : State} (h : s.lowCell = .next t) : s.Within t s.longestWait := by
  obtain ⟨j, hj, rfl⟩ | ⟨n, -, hn, rfl⟩ := lowCell_next h
  · exact ⟨_, s.le_longestWait (Nat.add_le_add_left hj _), by rw [State.afterTxBit_now]; rfl⟩
  · exact ⟨n, s.le_longestWait hn, by simp⟩

theorem stopCell_within {s t : State} (h : s.stopCell = .next t) : s.Within t s.longestWait := by
  obtain rfl | ⟨n, -, hn, rfl⟩ := stopCell_next h
  · exact ⟨s.bp.toNat, s.le_longestWait (Nat.le_add_right _ _), by simp⟩
  · exact ⟨n, s.le_longestWait (hn.trans (Nat.le_add_right _ _)), by simp⟩

theorem pollTurn_within {s t : State} (h : s.pollTurn = .next t) : s.Within t s.longestWait := by
  have hstep : ∀ {n}, n ≤ 1 + s.plat.jOpen → n ≤ s.longestWait := fun hn => s.le_longestWait (w := 1) hn
  obtain ⟨-, rfl⟩ | ⟨-, -, rfl⟩ | ⟨-, -, j, hj, rfl⟩ | ⟨n, -, hn, rfl⟩ := pollTurn_next h
  · exact State.within_of_now _ rfl
  · exact State.within_of_now _ rfl
  · exact ⟨_, hstep (Nat.add_le_add_left hj _), by simp⟩
  · exact ⟨n, hstep hn, by simp⟩

theorem alignCell_within {s t : State} (h : s.alignCell = .next t) : s.Within t s.longestWait := by
  obtain ⟨j, hj, rfl⟩ | ⟨n, -, hn, rfl⟩ := alignCell_next h
  · exact ⟨_, s.le_longestWait (w := alignDelay s.bp) (Nat.add_le_add_left hj _), by simp⟩
  · exact ⟨n, s.le_longestWait hn, by simp⟩

theorem sampleCell_within {s t : State} (h : s.sampleCell = .next t) : s.Within t s.longestWait := by
  obtain ⟨j, hj, rfl⟩ | ⟨n, -, hn, rfl⟩ := sampleCell_next h
  · exact ⟨_, s.le_longestWait (Nat.add_le_add_left hj _), by rw [State.afterRxBit_now]; rfl⟩
  · exact ⟨n, s.le_longestWait hn, by simp⟩

theorem underReset_within (s : State) : s.Within s.underReset 1 := by
  rcases s.underReset_cases with ⟨-, h⟩ | ⟨r, -, -, h⟩ | ⟨r, -, -, h⟩ <;> rw [h]
  · exact State.within_of_now _ rfl
  · exact ⟨1, le_refl 1, rfl⟩
  · exact State.within_of_now _ rfl

theorem State.one_le_longestWait (s : State) : 1 ≤ s.longestWait :=
  s.le_longestWait (w := 1) (Nat.le_add_right 1 s.plat.jOpen)

theorem nextCell_within {s t : State} (h : s.nextCell = .next t) : s.Within t s.longestWait := by
  rcases nextCell_next h with ⟨-, -, rfl⟩ | ⟨-, h⟩ | ⟨-, h⟩ | ⟨-, h⟩ | ⟨-, h⟩ | rfl
  · exact (underReset_within s).mono s.one_le_longestWait
  · exact startCell_within h
  · exact highCell_within h
  · exact lowCell_within h
  · exact stopCell_within h
  · exact State.within_of_now _ rfl

theorem nextCells_within {k : Nat} {s t : State} (h : s.nextCells k = .next t) :
    s.Within t (k * s.longestWait) := by
  induction k generalizing s with
  | zero =>
    obtain rfl := Host.Outcome.next.inj h
    exact State.within_of_now _ rfl
  | succ k ih =>
    cases hcell : s.nextCell with
    | next u =>
      rw [State.nextCells_succ hcell] at h
      have hrest := ih h
      rw [State.longestWait, (nextCell_carries hcell).plat] at hrest
      rw [Nat.succ_mul, Nat.add_comm]
      exact (nextCell_within hcell).trans hrest
    | fault r => simp [State.nextCells, hcell] at h
    | refused r => simp [State.nextCells, hcell] at h

/-- An instruction takes at most ten of the longest waits: a frame run whole has ten cells. -/
theorem exec_within {i : Instr} {s t : State} (h : exec i s = .next t) : s.Within t (10 * s.longestWait) := by
  have hone : s.Within t s.longestWait → s.Within t (10 * s.longestWait) := fun hw => hw.mono (by omega)
  have hcommand : IsCommand i → s.Within t (10 * s.longestWait) := fun hi =>
    State.within_of_now _ (exec_command_keeps hi h).2.1
  rcases exec_next h with ⟨pin, rfl, -⟩ | ⟨baud, rfl, -⟩ | ⟨byte, rfl, -⟩ | ⟨rfl, -⟩ | ⟨byte, -, -, -, h⟩ | ⟨-, -, h⟩ |
    ⟨-, -, h⟩ | ⟨-, -, h⟩ | ⟨-, -, h⟩ | ⟨-, -, h⟩ | ⟨-, -, h⟩ | ⟨-, -, h⟩
  · exact hcommand (.inl ⟨pin, rfl⟩)
  · exact hcommand (.inr (.inl ⟨baud, rfl⟩))
  · exact hcommand (.inr (.inr (.inl ⟨byte, rfl⟩)))
  · exact hcommand (.inr (.inr (.inr rfl)))
  · exact nextCells_within h
  · exact hone (startCell_within h)
  · exact hone (highCell_within h)
  · exact hone (lowCell_within h)
  · exact hone (stopCell_within h)
  · exact hone (pollTurn_within h)
  · exact hone (alignCell_within h)
  · exact hone (sampleCell_within h)

theorem step_within {s t : State} (h : step s = .next t) : s.Within t (10 * s.longestWait) := by
  have hone : 1 ≤ 10 * s.longestWait := s.one_le_longestWait.trans (Nat.le_mul_of_pos_left _ (by omega))
  rcases step_next_exec h with ⟨-, rfl⟩ | ⟨-, i, valid, rest, h⟩ | ⟨-, rfl⟩
  · exact (underReset_within s).mono hone
  · exact exec_within (s := s.taken valid rest) h
  · exact ⟨1, hone, rfl⟩

/-- Settles O38: on a clock that fits, the time that has passed is added to it. -/
theorem clockNeverGoesBack : Obligations.ClockNeverGoesBack := by
  unfold Obligations.ClockNeverGoesBack
  intro s t hc h
  obtain ⟨d, hd, hnow⟩ := step_within h
  rw [hnow, State.now_add hc hd]
  exact ⟨Nat.le_add_right _ _, Nat.add_le_add_left hd _⟩

/-! ### The writers of the registers (spec/10_state.md, the summary table) -/

/-- Settles O36: no micro-operation writes them, and of the commands BIND alone, which an unbound block takes. -/
theorem pinIsWrittenOnceByBind : Obligations.PinIsWrittenOnceByBind := by
  unfold Obligations.PinIsWrittenOnceByBind
  intro i s t hr h hwritten
  rcases exec_carries h with hi | hcell
  · rcases hi with ⟨pin, rfl⟩ | ⟨baud, rfl⟩ | ⟨byte, rfl⟩ | rfl
    · obtain ⟨-, hb, ⟨-, rfl⟩ | ⟨-, -, rfl⟩⟩ := execBind_next h
      · simp at hwritten
      · exact ⟨hb, pin, rfl, rfl, rfl⟩
    · obtain ⟨-, -, -, -, rfl⟩ := execConfigure_next h
      simp at hwritten
    · obtain ⟨-, -, -, rfl⟩ := execWrite_next h
      simp at hwritten
    · obtain ⟨-, -, -, rfl⟩ := execRead_next h
      simp at hwritten
  · have hkept := hcell.carries hr
    rcases hwritten with hpin | hbound
    · exact absurd hkept.pin hpin
    · exact absurd hkept.bound hbound

/-- What the cells of a frame leave alone besides what every micro-operation carries over. -/
structure State.FrameKeeps (s t : State) : Prop where
  timedOut : t.timedOut = s.timedOut
  rxb : t.rxb = s.rxb
  unmasks : t.im = s.im ∨ t.im = false

theorem State.FrameKeeps.trans {s t u : State} (h : s.FrameKeeps t) (h' : t.FrameKeeps u) : s.FrameKeeps u := by
  refine ⟨h'.timedOut.trans h.timedOut, h'.rxb.trans h.rxb, ?_⟩
  rcases h'.unmasks with him | him
  · rw [him]
    exact h.unmasks
  · exact .inr him

/-- Without a reset every cell keeps them. -/
theorem nextCell_frameKeeps {s t : State} (hr : s.NoReset) (h : s.nextCell = .next t) : s.FrameKeeps t := by
  have hnocut : ∀ {p : Prop}, s.rstAt ≠ [] ∧ p → False := fun hcut => hcut.1 hr.2
  rcases nextCell_next h with ⟨-, hdue, -⟩ | ⟨-, h⟩ | ⟨-, h⟩ | ⟨-, h⟩ | ⟨-, h⟩ | rfl
  · simp [hr.resetDue] at hdue
  · obtain rfl | ⟨n, hcut⟩ := startCell_next h
    · exact ⟨by simp, by simp, .inr (by simp)⟩
    · exact (hnocut hcut).elim
  · obtain ⟨j, -, rfl⟩ | ⟨n, hcut⟩ := highCell_next h
    · obtain ⟨i, p, hbit⟩ := State.afterTxBit_eq
        (((s.mask.setDirection .output).setLevel .high).unmask.countDraw.advance (s.bp.toNat + j))
      rw [hbit]
      exact ⟨by simp, by simp, .inr (by simp)⟩
    · exact (hnocut hcut).elim
  · obtain ⟨j, -, rfl⟩ | ⟨n, hcut⟩ := lowCell_next h
    · obtain ⟨i, p, hbit⟩ := State.afterTxBit_eq
        (((s.mask.setLevel .low).setDirection .output).unmask.countDraw.advance (s.bp.toNat + j))
      rw [hbit]
      exact ⟨by simp, by simp, .inr (by simp)⟩
    · exact (hnocut hcut).elim
  · obtain rfl | ⟨n, hcut⟩ := stopCell_next h
    · exact ⟨by simp, by simp, .inr (by simp)⟩
    · exact (hnocut hcut).elim
  · exact ⟨rfl, rfl, .inl rfl⟩

theorem nextCells_frameKeeps {k : Nat} {s t : State} (hr : s.NoReset) (h : s.nextCells k = .next t) :
    s.FrameKeeps t := by
  induction k generalizing s with
  | zero =>
    obtain rfl := Host.Outcome.next.inj h
    exact ⟨rfl, rfl, .inl rfl⟩
  | succ k ih =>
    cases hcell : s.nextCell with
    | next u =>
      rw [State.nextCells_succ hcell] at h
      have hover := (nextCell_carries hcell).carries hr
      exact (nextCell_frameKeeps hr hcell).trans (ih (hover.noReset_iff.mpr hr) h)
    | fault r => simp [State.nextCells, hcell] at h
    | refused r => simp [State.nextCells, hcell] at h

/-- Settles O37: case by case, the registers an instruction that no reset cuts does not write are those of its state. -/
theorem registersHaveTheirWriters : Obligations.RegistersHaveTheirWriters := by
  unfold Obligations.RegistersHaveTheirWriters
  intro i s t hr h
  have hnocut : ∀ {p : Prop}, s.rstAt ≠ [] ∧ p → False := fun hcut => hcut.1 hr.2
  rcases exec_next h with ⟨pin, rfl, h⟩ | ⟨baud, rfl, h⟩ | ⟨byte, rfl, h⟩ | ⟨rfl, h⟩ | ⟨byte, rfl, -, -, h⟩ |
    ⟨rfl, -, h⟩ | ⟨rfl, -, h⟩ | ⟨rfl, -, h⟩ | ⟨rfl, -, h⟩ | ⟨rfl, -, h⟩ | ⟨rfl, -, h⟩ | ⟨rfl, -, h⟩
  · obtain ⟨-, -, ⟨-, rfl⟩ | ⟨-, -, rfl⟩⟩ := execBind_next h <;> simp
  · obtain ⟨-, -, -, -, rfl⟩ := execConfigure_next h
    simp
  · obtain ⟨-, -, -, rfl⟩ := execWrite_next h
    simp
  · obtain ⟨-, -, -, rfl⟩ := execRead_next h
    simp
  · have hcarried := (nextCells_carries h).carries hr
    have hkept := nextCells_frameKeeps hr h
    simpa [hcarried.bp, hcarried.configured, hcarried.cfgf, hcarried.t0, hcarried.txb, hkept.timedOut, hkept.rxb]
      using hkept.unmasks.resolve_left
  · obtain rfl | ⟨n, hcut⟩ := startCell_next h
    · simp
    · exact (hnocut hcut).elim
  · obtain ⟨j, -, rfl⟩ | ⟨n, hcut⟩ := highCell_next h
    · obtain ⟨i, p, hbit⟩ := State.afterTxBit_eq
        (((s.mask.setDirection .output).setLevel .high).unmask.countDraw.advance (s.bp.toNat + j))
      simp [hbit]
    · exact (hnocut hcut).elim
  · obtain ⟨j, -, rfl⟩ | ⟨n, hcut⟩ := lowCell_next h
    · obtain ⟨i, p, hbit⟩ := State.afterTxBit_eq
        (((s.mask.setLevel .low).setDirection .output).unmask.countDraw.advance (s.bp.toNat + j))
      simp [hbit]
    · exact (hnocut hcut).elim
  · obtain rfl | ⟨n, hcut⟩ := stopCell_next h
    · simp
    · exact (hnocut hcut).elim
  · obtain ⟨-, rfl⟩ | ⟨-, -, rfl⟩ | ⟨-, -, j, -, rfl⟩ | ⟨n, hcut⟩ := pollTurn_next h
    · simp
    · simp
    · simp
    · exact (hnocut hcut).elim
  · obtain ⟨j, -, rfl⟩ | ⟨n, hcut⟩ := alignCell_next h
    · simp
    · exact (hnocut hcut).elim
  · obtain ⟨j, -, rfl⟩ | ⟨n, hcut⟩ := sampleCell_next h
    · rw [State.afterRxBit_eq]
      split <;> simp
    · exact (hnocut hcut).elim

end Sys2Proof.Machine
end

section
/-! PROOFS. Two invariants of the whole machine: the critical sections alternate, and every step keeps `Sound`. -/

namespace Sys2Proof.Machine

/-! ### Critical sections (spec/43_timing_primitives.md R143) -/

/-- From `s`, unmasked, to `t` the sections opened have been closed, one after the other. -/
def State.Sectioned (s t : State) : Prop :=
  s.im = false → t.im = false ∧
    ∃ ev, t.trace = ev ++ s.trace ∧ sections false (ev.reverse.map PinEvent.op) = some false

theorem State.Sectioned.refl (s : State) : s.Sectioned s := fun him => ⟨him, [], rfl, rfl⟩

theorem State.Sectioned.trans {s t u : State} (h : s.Sectioned t) (h' : t.Sectioned u) : s.Sectioned u := by
  intro him
  obtain ⟨him', early, htrace, hearly⟩ := h him
  obtain ⟨him'', late, htrace', hlate⟩ := h' him'
  refine ⟨him'', late ++ early, by rw [htrace', htrace, List.append_assoc], ?_⟩
  rw [List.reverse_append, List.map_append, sections_append, hearly]
  exact hlate

/-- Operations that alternate, seen in the order in which they were made. -/
theorem State.sectioned_of_events {s t : State} (ev : List PinEvent) (him : t.im = false)
    (htrace : t.trace = ev ++ s.trace) (hev : sections false (ev.reverse.map PinEvent.op) = some false) :
    s.Sectioned t := fun _ => ⟨him, ev, htrace, hev⟩

theorem State.afterTxBit_sectioned (s : State) : s.Sectioned s.afterTxBit := by
  obtain ⟨i, p, h⟩ := s.afterTxBit_eq
  rw [h]
  exact fun him => ⟨him, [], rfl, rfl⟩

theorem State.afterRxBit_sectioned (s : State) (v : Level) : s.Sectioned (s.afterRxBit v) := by
  rw [State.afterRxBit_eq]
  split <;> exact fun him => ⟨him, [], rfl, rfl⟩

theorem startCell_sectioned {s t : State} (h : s.startCell = .next t) : s.Sectioned t := by
  obtain rfl | ⟨n, -, -, rfl⟩ := startCell_next h
  · exact State.sectioned_of_events [_, _, _, _] rfl rfl rfl
  · exact State.sectioned_of_events [_, _, _, _] rfl rfl rfl

theorem highCell_sectioned {s t : State} (h : s.highCell = .next t) : s.Sectioned t := by
  obtain ⟨j, -, rfl⟩ | ⟨n, -, -, rfl⟩ := highCell_next h
  · exact .trans (State.sectioned_of_events [_, _, _, _] rfl rfl rfl) (State.afterTxBit_sectioned _)
  · exact State.sectioned_of_events [_, _, _, _, _] rfl rfl rfl

theorem lowCell_sectioned {s t : State} (h : s.lowCell = .next t) : s.Sectioned t := by
  obtain ⟨j, -, rfl⟩ | ⟨n, -, -, rfl⟩ := lowCell_next h
  · exact .trans (State.sectioned_of_events [_, _, _, _] rfl rfl rfl) (State.afterTxBit_sectioned _)
  · exact State.sectioned_of_events [_, _, _, _, _] rfl rfl rfl

theorem stopCell_sectioned {s t : State} (h : s.stopCell = .next t) : s.Sectioned t := by
  obtain rfl | ⟨n, -, -, rfl⟩ := stopCell_next h
  · exact State.sectioned_of_events [_, _, _, _, _] rfl rfl rfl
  · exact State.sectioned_of_events [_, _, _] rfl rfl rfl

theorem pollTurn_sectioned {s t : State} (h : s.pollTurn = .next t) : s.Sectioned t := by
  obtain ⟨-, rfl⟩ | ⟨-, -, rfl⟩ | ⟨-, -, j, -, rfl⟩ | ⟨n, -, -, rfl⟩ := pollTurn_next h
  · exact fun him => ⟨him, [_], rfl, rfl⟩
  · exact fun him => ⟨him, [_], rfl, rfl⟩
  · exact fun him => ⟨him, [_], rfl, rfl⟩
  · exact State.sectioned_of_events [_, _] rfl rfl rfl

theorem alignCell_sectioned {s t : State} (h : s.alignCell = .next t) : s.Sectioned t := by
  obtain ⟨j, -, rfl⟩ | ⟨n, -, -, rfl⟩ := alignCell_next h
  · exact fun him => ⟨him, [], rfl, rfl⟩
  · exact State.sectioned_of_events [_] rfl rfl rfl

theorem sampleCell_sectioned {s t : State} (h : s.sampleCell = .next t) : s.Sectioned t := by
  obtain ⟨j, -, rfl⟩ | ⟨n, -, -, rfl⟩ := sampleCell_next h
  · exact .trans (State.sectioned_of_events [_, _, _, _] rfl rfl rfl) (State.afterRxBit_sectioned _ _)
  · exact State.sectioned_of_events [_, _, _, _, _] rfl rfl rfl

theorem underReset_sectioned (s : State) : s.Sectioned s.underReset := by
  rcases s.underReset_cases with ⟨-, h⟩ | ⟨r, -, -, h⟩ | ⟨r, -, -, h⟩ <;> rw [h]
  · exact State.sectioned_of_events [_] rfl rfl rfl
  · exact State.sectioned_of_events [] rfl rfl rfl
  · exact State.sectioned_of_events [] rfl rfl rfl

theorem nextCell_sectioned {s t : State} (h : s.nextCell = .next t) : s.Sectioned t := by
  rcases nextCell_next h with ⟨-, -, rfl⟩ | ⟨-, h⟩ | ⟨-, h⟩ | ⟨-, h⟩ | ⟨-, h⟩ | rfl
  · exact underReset_sectioned s
  · exact startCell_sectioned h
  · exact highCell_sectioned h
  · exact lowCell_sectioned h
  · exact stopCell_sectioned h
  · exact State.Sectioned.refl _

/-- Settles O34: every micro-operation opens at most one section and closes it, a frame cell by cell; the commands open
none. -/
theorem criticalSectionsNeverNest : Obligations.CriticalSectionsNeverNest := by
  unfold Obligations.CriticalSectionsNeverNest
  intro i s t him h
  refine (?_ : s.Sectioned t) him
  rcases exec_next h with ⟨pin, -, h⟩ | ⟨baud, -, h⟩ | ⟨byte, -, h⟩ | ⟨-, h⟩ | ⟨byte, -, -, -, h⟩ |
    ⟨-, -, h⟩ | ⟨-, -, h⟩ | ⟨-, -, h⟩ | ⟨-, -, h⟩ | ⟨-, -, h⟩ | ⟨-, -, h⟩ | ⟨-, -, h⟩
  · obtain ⟨-, -, ⟨-, rfl⟩ | ⟨-, -, rfl⟩⟩ := execBind_next h
    · exact fun him => ⟨him, [], rfl, rfl⟩
    · exact fun him => ⟨him, [_], rfl, rfl⟩
  · obtain ⟨-, -, -, -, rfl⟩ := execConfigure_next h
    exact fun him => ⟨him, [], rfl, rfl⟩
  · obtain ⟨-, -, -, rfl⟩ := execWrite_next h
    exact fun him => ⟨him, [], rfl, rfl⟩
  · obtain ⟨-, -, -, rfl⟩ := execRead_next h
    exact fun him => ⟨him, [], rfl, rfl⟩
  · exact nextCells_rel State.Sectioned.refl (fun _ _ _ => State.Sectioned.trans) (fun _ _ => nextCell_sectioned) h
  · exact startCell_sectioned h
  · exact highCell_sectioned h
  · exact lowCell_sectioned h
  · exact stopCell_sectioned h
  · exact pollTurn_sectioned h
  · exact alignCell_sectioned h
  · exact sampleCell_sectioned h

/-! ### `Sound` at each kind of position -/

/-- What a sound state holds wherever a transfer is in progress. -/
structure State.Transfers (s : State) : Prop where
  bound : s.bound = true
  configured : s.configured = true
  bpPos : 1 ≤ s.bp.toNat
  bpLe : s.bp.toNat ≤ 1000000
  cfgf : s.cfgf = false
  error : s.rspErr = .ok
  pulseOver : s.rspValid = false

theorem RspErr.eq_ok_of_ne {e : RspErr} (h : e ≠ .eCfg) : e = .ok := by
  cases e with
  | ok => rfl
  | eCfg => exact absurd rfl h

theorem Phase.inTransfer_iff {p : Phase} : p.inTransfer = true ↔ p ≠ .unbound ∧ p ≠ .idle ∧ p ≠ .faulted := by
  cases p <;> simp [Phase.inTransfer]

theorem Sound.transfers {s : State} (hs : Sound s) (hp : s.phase.inTransfer = true) : s.Transfers := by
  have hc := hs.busy_configured hp
  obtain ⟨hb, hpos, hle⟩ := hs.bp_legal hc
  obtain ⟨-, hidle, hfault⟩ := Phase.inTransfer_iff.mp hp
  exact ⟨hb, hc, hpos, hle, Bool.eq_false_iff.mpr (mt hs.fault_iff.mp hfault),
    RspErr.eq_ok_of_ne (mt hs.error_iff.mp hfault),
    Bool.eq_false_iff.mpr fun hv => (hs.pulse hv).elim hidle hfault⟩

theorem State.Transfers.kept {s t : State} (h : s.Transfers) (hbound : t.bound = s.bound)
    (hconf : t.configured = s.configured) (hbp : t.bp = s.bp) (hcfgf : t.cfgf = s.cfgf) (herr : t.rspErr = s.rspErr)
    (hpulse : t.rspValid = s.rspValid) : t.Transfers :=
  ⟨hbound.trans h.bound, hconf.trans h.configured, hbp ▸ h.bpPos, hbp ▸ h.bpLe, hcfgf.trans h.cfgf,
    herr.trans h.error, hpulse.trans h.pulseOver⟩

/-- A state in a transfer is sound when its own fields are. -/
theorem State.Transfers.sound {t : State} (h : t.Transfers) (hp : t.phase.inTransfer = true) (him : t.im = false)
    (hdir : t.dir = .output ↔ t.phase = .wBit ∨ t.phase = .wStop) (hidx : t.idx.toNat ≤ 8)
    (hdata : t.phase = .wBit ∨ t.phase = .rBit → t.idx.toNat ≤ 7) (hpoll : t.phase = .rPoll → t.timedOut = false)
    (hempty : t.phase = .rPoll ∨ t.phase = .rAlign → t.rxb = 0)
    (hsofar : t.phase = .rBit → t.rxb.toNat < 2 ^ t.idx.toNat) : Sound t := by
  obtain ⟨hunbound, -, hfault⟩ := Phase.inTransfer_iff.mp hp
  exact {
    unmasked := him
    bound_iff := iff_of_true h.bound ⟨hunbound, hfault⟩
    fault_iff := by simp [h.cfgf, hfault]
    error_iff := by simp [h.error, hfault]
    busy_configured := fun _ => h.configured
    bp_legal := fun _ => ⟨h.bound, h.bpPos, h.bpLe⟩
    output_iff := hdir
    idx_le := hidx
    idx_data := hdata
    polling := hpoll
    rxb_empty := hempty
    rxb_so_far := hsofar
    pulse := fun hv => by simp [h.pulseOver] at hv }

/-- An idle state is sound when nothing of a failure and nothing of a transfer is left. -/
theorem sound_of_idle {t : State} (hp : t.phase = .idle) (him : t.im = false) (hb : t.bound = true)
    (hbp : t.configured = true → 1 ≤ t.bp.toNat ∧ t.bp.toNat ≤ 1000000) (hcfgf : t.cfgf = false)
    (herr : t.rspErr = .ok) (hdir : t.dir = .input) (hidx : t.idx.toNat ≤ 8) : Sound t where
  unmasked := him
  bound_iff := by simp [hb, hp]
  fault_iff := by simp [hcfgf, hp]
  error_iff := by simp [herr, hp]
  busy_configured := by simp [State.busy, hp, Phase.inTransfer]
  bp_legal := fun hc => ⟨hb, hbp hc⟩
  output_iff := by simp [hdir, hp]
  idx_le := hidx
  idx_data := by simp [hp]
  polling := by simp [hp]
  rxb_empty := by simp [hp]
  rxb_so_far := by simp [hp]
  pulse := by simp [hp]

/-- An unbound state is sound when it is as after reset. -/
theorem sound_of_unbound {t : State} (hp : t.phase = .unbound) (him : t.im = false) (hb : t.bound = false)
    (hc : t.configured = false) (hcfgf : t.cfgf = false) (herr : t.rspErr = .ok) (hdir : t.dir = .input)
    (hidx : t.idx.toNat ≤ 8) (hv : t.rspValid = false) : Sound t where
  unmasked := him
  bound_iff := by simp [hb, hp]
  fault_iff := by simp [hcfgf, hp]
  error_iff := by simp [herr, hp]
  busy_configured := by simp [State.busy, hp, Phase.inTransfer]
  bp_legal := by simp [hc]
  output_iff := by simp [hdir, hp]
  idx_le := hidx
  idx_data := by simp [hp]
  polling := by simp [hp]
  rxb_empty := by simp [hp]
  rxb_so_far := by simp [hp]
  pulse := by simp [hv]

/-- Settles O32: the state after reset is unbound. -/
theorem resetStateIsSound : Obligations.ResetStateIsSound :=
  sound_of_unbound rfl rfl rfl rfl rfl rfl rfl (by decide) rfl

theorem State.takeReset_sound (s : State) : Sound s.takeReset := by
  apply sound_of_unbound <;> simp

theorem State.underReset_sound (s : State) : Sound s.underReset := by
  rcases s.underReset_cases with ⟨-, h⟩ | ⟨r, -, -, h⟩ | ⟨r, -, -, h⟩ <;> rw [h]
  · exact s.takeReset_sound
  · apply sound_of_unbound <;> simp
  · apply sound_of_unbound <;> simp

/-! ### Every instruction keeps `Sound` -/

theorem Sound.dir_input {s : State} (hs : Sound s) (hp : ¬(s.phase = .wBit ∨ s.phase = .wStop)) : s.dir = .input := by
  cases hd : s.dir with
  | input => rfl
  | output => exact absurd (hs.output_iff.mp hd) hp

theorem Sound.execBind {pin : PinId} {s t : State} (hs : Sound s) (h : execBind pin s = .next t) : Sound t := by
  obtain ⟨hp, hb, hcase⟩ := execBind_next h
  have hc : ¬s.configured = true := fun hc => by simp [(hs.bp_legal hc).1] at hb
  have hdir := hs.dir_input (by simp [hp])
  obtain ⟨-, rfl⟩ | ⟨-, -, rfl⟩ := hcase
  · exact {
      unmasked := hs.unmasked
      bound_iff := by simp [hb]
      fault_iff := by simp
      error_iff := by simp
      busy_configured := by simp [State.busy, Phase.inTransfer]
      bp_legal := fun hconf => absurd hconf hc
      output_iff := by simp [hdir]
      idx_le := hs.idx_le
      idx_data := by simp
      polling := by simp
      rxb_empty := by simp
      rxb_so_far := by simp
      pulse := by simp }
  · refine sound_of_idle rfl hs.unmasked rfl (fun hconf => absurd hconf hc) ?_ rfl rfl hs.idx_le
    exact Bool.eq_false_iff.mpr (mt hs.fault_iff.mp (by simp [hp]))

theorem Sound.execConfigure {baud : Word32} {s t : State} (hs : Sound s) (h : execConfigure baud s = .next t) :
    Sound t := by
  obtain ⟨hb, hp, hpos, hmax, rfl⟩ := execConfigure_next h
  refine sound_of_idle rfl hs.unmasked hb (fun _ => ⟨bitPeriod_pos hpos (by omega), bitPeriod_le baud⟩) ?_ rfl
    (hs.dir_input (by simp [hp])) hs.idx_le
  exact Bool.eq_false_iff.mpr (mt hs.fault_iff.mp (by simp [hp]))

/-- An idle configured state whose pulse is over may begin a transfer. -/
theorem Sound.transfers_of_idle {s : State} (hs : Sound s) (hp : s.phase = .idle) (hc : s.configured = true)
    (hv : s.rspValid = false) : s.Transfers := by
  obtain ⟨hb, hpos, hle⟩ := hs.bp_legal hc
  exact ⟨hb, hc, hpos, hle, Bool.eq_false_iff.mpr (mt hs.fault_iff.mp (by simp [hp])),
    RspErr.eq_ok_of_ne (mt hs.error_iff.mp (by simp [hp])), hv⟩

theorem Sound.execWrite {byte : Byte} {s t : State} (hs : Sound s) (hv : s.rspValid = false)
    (h : execWrite byte s = .next t) : Sound t := by
  obtain ⟨-, hp, hc, rfl⟩ := execWrite_next h
  have hdir := hs.dir_input (by simp [hp])
  refine State.Transfers.sound ((hs.transfers_of_idle hp hc hv).kept rfl rfl rfl rfl rfl rfl) rfl hs.unmasked ?_
    hs.idx_le ?_ ?_ ?_ ?_ <;> simp [hdir]

theorem Sound.execRead {s t : State} (hs : Sound s) (hv : s.rspValid = false) (h : execRead s = .next t) :
    Sound t := by
  obtain ⟨-, hp, hc, rfl⟩ := execRead_next h
  have hdir := hs.dir_input (by simp [hp])
  refine State.Transfers.sound ((hs.transfers_of_idle hp hc hv).kept rfl rfl rfl rfl rfl rfl) rfl hs.unmasked ?_
    hs.idx_le ?_ ?_ ?_ ?_ <;> simp [hdir]

theorem Sound.startCell {s t : State} (hs : Sound s) (hp : s.phase = .wStart) (h : s.startCell = .next t) :
    Sound t := by
  have hbase := hs.transfers (by rw [hp]; rfl)
  obtain rfl | ⟨n, -, -, rfl⟩ := startCell_next h
  · refine State.Transfers.sound (hbase.kept ?_ ?_ ?_ ?_ ?_ ?_) ?_ ?_ ?_ ?_ ?_ ?_ ?_ ?_ <;> simp [Phase.inTransfer]
  · exact State.takeReset_sound _

/-- The step from a data cell that has been transmitted to the next cell. -/
theorem State.afterTxBit_sound {s : State} (h : s.Transfers) (hp : s.phase = .wBit) (him : s.im = false)
    (hd : s.dir = .output) : Sound s.afterTxBit := by
  by_cases hmore : s.idx.toNat < 7
  · have hidx : (s.idx + 1).toNat ≤ 7 := by bv_omega
    rw [State.afterTxBit_more hmore]
    exact State.Transfers.sound (h.kept rfl rfl rfl rfl rfl rfl) (by rw [hp]; rfl) him (by simp [hp, hd])
      (by exact hidx.trans (by omega)) (fun _ => hidx) (by simp [hp]) (by simp [hp]) (by simp [hp])
  · rw [State.afterTxBit_last (Nat.le_of_not_lt hmore)]
    refine State.Transfers.sound (h.kept rfl rfl rfl rfl rfl rfl) rfl him ?_ ?_ ?_ ?_ ?_ ?_ <;> simp [hd]

theorem Sound.highCell {s t : State} (hs : Sound s) (hp : s.phase = .wBit) (h : s.highCell = .next t) : Sound t := by
  have hbase := hs.transfers (by rw [hp]; rfl)
  obtain ⟨j, -, rfl⟩ | ⟨n, -, -, rfl⟩ := highCell_next h
  · refine State.afterTxBit_sound (hbase.kept ?_ ?_ ?_ ?_ ?_ ?_) ?_ ?_ ?_ <;> simp [hp]
  · exact State.takeReset_sound _

theorem Sound.lowCell {s t : State} (hs : Sound s) (hp : s.phase = .wBit) (h : s.lowCell = .next t) : Sound t := by
  have hbase := hs.transfers (by rw [hp]; rfl)
  obtain ⟨j, -, rfl⟩ | ⟨n, -, -, rfl⟩ := lowCell_next h
  · refine State.afterTxBit_sound (hbase.kept ?_ ?_ ?_ ?_ ?_ ?_) ?_ ?_ ?_ <;> simp [hp]
  · exact State.takeReset_sound _

theorem Sound.stopCell {s t : State} (hs : Sound s) (hp : s.phase = .wStop) (h : s.stopCell = .next t) : Sound t := by
  have hbase := hs.transfers (by rw [hp]; rfl)
  obtain rfl | ⟨n, -, -, rfl⟩ := stopCell_next h
  · refine sound_of_idle ?_ ?_ ?_ ?_ ?_ ?_ ?_ ?_ <;> simp [hbase.bound, hbase.bpPos, hbase.bpLe, hbase.cfgf, hs.idx_le]
  · exact State.takeReset_sound _

theorem Sound.pollTurn {s t : State} (hs : Sound s) (hp : s.phase = .rPoll) (h : s.pollTurn = .next t) : Sound t := by
  have hbase := hs.transfers (by rw [hp]; rfl)
  have hdir := hs.dir_input (by simp [hp])
  have hrxb := hs.rxb_empty (.inl hp)
  obtain ⟨-, rfl⟩ | ⟨-, -, rfl⟩ | ⟨-, -, j, -, rfl⟩ | ⟨n, -, -, rfl⟩ := pollTurn_next h
  · refine State.Transfers.sound (hbase.kept ?_ ?_ ?_ ?_ ?_ ?_) ?_ ?_ ?_ ?_ ?_ ?_ ?_ ?_ <;>
      simp [Phase.inTransfer, hs.unmasked, hdir, hs.idx_le, hrxb]
  · refine State.Transfers.sound (hbase.kept ?_ ?_ ?_ ?_ ?_ ?_) ?_ ?_ ?_ ?_ ?_ ?_ ?_ ?_ <;>
      simp [Phase.inTransfer, hs.unmasked, hdir, hs.idx_le, hrxb]
  · refine State.Transfers.sound (hbase.kept ?_ ?_ ?_ ?_ ?_ ?_) ?_ ?_ ?_ ?_ ?_ ?_ ?_ ?_ <;>
      simp [hp, Phase.inTransfer, hs.unmasked, hdir, hs.idx_le, hrxb, hs.polling hp]
  · exact State.takeReset_sound _

theorem Sound.alignCell {s t : State} (hs : Sound s) (hp : s.phase = .rAlign) (h : s.alignCell = .next t) :
    Sound t := by
  have hbase := hs.transfers (by rw [hp]; rfl)
  have hdir := hs.dir_input (by simp [hp])
  have hrxb := hs.rxb_empty (.inr hp)
  obtain ⟨j, -, rfl⟩ | ⟨n, -, -, rfl⟩ := alignCell_next h
  · refine State.Transfers.sound (hbase.kept ?_ ?_ ?_ ?_ ?_ ?_) ?_ ?_ ?_ ?_ ?_ ?_ ?_ ?_ <;>
      simp [Phase.inTransfer, hs.unmasked, hdir, hrxb]
  · exact State.takeReset_sound _

/-- A sample put in its place leaves the places after it empty (spec/30_encoding.md R77). -/
theorem rxInsert_lt {rxb : Byte} {idx : BitVec 4} (v : Level) (h : rxb.toNat < 2 ^ idx.toNat) :
    (rxInsert rxb v idx).toNat < 2 ^ (idx.toNat + 1) := by
  have hplace : ((BitVec.ofBool v.bit).setWidth 8 <<< idx.toNat).toNat < 2 ^ (idx.toNat + 1) := by
    have hbit : ((BitVec.ofBool v.bit).setWidth 8).toNat ≤ 1 := by cases v <;> decide
    calc ((BitVec.ofBool v.bit).setWidth 8 <<< idx.toNat).toNat
        ≤ ((BitVec.ofBool v.bit).setWidth 8).toNat * 2 ^ idx.toNat := by
          rw [BitVec.toNat_shiftLeft, Nat.shiftLeft_eq]
          exact Nat.mod_le _ _
      _ ≤ 1 * 2 ^ idx.toNat := Nat.mul_le_mul_right _ hbit
      _ < 2 ^ (idx.toNat + 1) := by rw [Nat.one_mul]; exact Nat.pow_lt_pow_succ (by omega)
  rw [rxInsert, BitVec.toNat_or]
  exact Nat.or_lt_two_pow (h.trans (Nat.pow_lt_pow_succ (by omega))) hplace

/-- The step from a sample to the next one or to the response. -/
theorem State.afterRxBit_sound {s : State} (v : Level) (h : s.Transfers) (hp : s.phase = .rBit) (him : s.im = false)
    (hd : s.dir = .input) (hrxb : s.rxb.toNat < 2 ^ s.idx.toNat) : Sound (s.afterRxBit v) := by
  by_cases hmore : s.idx.toNat < 7
  · have hidx : (s.idx + 1).toNat = s.idx.toNat + 1 := by bv_omega
    have hnext : (s.idx + 1).toNat ≤ 7 := by omega
    have hinsert : (rxInsert s.rxb v s.idx).toNat < 2 ^ (s.idx + 1).toNat := hidx ▸ rxInsert_lt v hrxb
    rw [State.afterRxBit_more v hmore]
    exact State.Transfers.sound (h.kept rfl rfl rfl rfl rfl rfl) (by rw [hp]; rfl) him (by simp [hp, hd])
      (by exact hnext.trans (by omega)) (fun _ => hnext) (by simp [hp]) (by simp [hp]) (fun _ => hinsert)
  · rw [State.afterRxBit_last v (Nat.le_of_not_lt hmore)]
    refine sound_of_idle ?_ ?_ ?_ ?_ ?_ ?_ ?_ ?_ <;> simp [him, hd, h.bound, h.bpPos, h.bpLe, h.cfgf]

theorem Sound.sampleCell {s t : State} (hs : Sound s) (hp : s.phase = .rBit) (h : s.sampleCell = .next t) :
    Sound t := by
  have hbase := hs.transfers (by rw [hp]; rfl)
  obtain ⟨j, -, rfl⟩ | ⟨n, -, -, rfl⟩ := sampleCell_next h
  · refine State.afterRxBit_sound _ (hbase.kept ?_ ?_ ?_ ?_ ?_ ?_) ?_ ?_ ?_ ?_ <;> simp [hp, hs.rxb_so_far hp]
  · exact State.takeReset_sound _

theorem nextCell_sound {s t : State} (h : s.nextCell = .next t) (hs : Sound s) : Sound t := by
  rcases nextCell_next h with ⟨-, -, rfl⟩ | ⟨hp, h⟩ | ⟨hp, h⟩ | ⟨hp, h⟩ | ⟨hp, h⟩ | rfl
  · exact s.underReset_sound
  · exact hs.startCell hp h
  · exact hs.highCell hp h
  · exact hs.lowCell hp h
  · exact hs.stopCell hp h
  · exact hs

theorem Sound.exec {i : Instr} {s t : State} (hs : Sound s) (hv : s.rspValid = false) (h : exec i s = .next t) :
    Sound t := by
  rcases exec_next h with ⟨pin, -, h⟩ | ⟨baud, -, h⟩ | ⟨byte, -, h⟩ | ⟨-, h⟩ | ⟨byte, -, -, -, h⟩ |
    ⟨-, hp, h⟩ | ⟨-, hp, h⟩ | ⟨-, hp, h⟩ | ⟨-, hp, h⟩ | ⟨-, hp, h⟩ | ⟨-, hp, h⟩ | ⟨-, hp, h⟩
  · exact hs.execBind h
  · exact hs.execConfigure h
  · exact hs.execWrite hv h
  · exact hs.execRead hv h
  · exact nextCells_rel (R := fun s t => Sound s → Sound t) (fun _ => id) (fun _ _ _ h₁ h₂ => h₂ ∘ h₁)
      (fun _ _ => nextCell_sound) h hs
  · exact hs.startCell hp h
  · exact hs.highCell hp h
  · exact hs.lowCell hp h
  · exact hs.stopCell hp h
  · exact hs.pollTurn hp h
  · exact hs.alignCell hp h
  · exact hs.sampleCell hp h

/-- `Sound` speaks of neither the port nor the caller's program, and the end of a pulse keeps it. -/
theorem Sound.taken {s : State} (hs : Sound s) (valid : Bool) (rest : List Issue) : Sound (s.taken valid rest) :=
  ⟨hs.unmasked, hs.bound_iff, hs.fault_iff, hs.error_iff, hs.busy_configured, hs.bp_legal, hs.output_iff, hs.idx_le,
    hs.idx_data, hs.polling, hs.rxb_empty, hs.rxb_so_far, fun hv => by cases hv⟩

theorem Sound.tick {s : State} (hs : Sound s) : Sound s.tick :=
  ⟨hs.unmasked, hs.bound_iff, hs.fault_iff, hs.error_iff, hs.busy_configured, hs.bp_legal, hs.output_iff, hs.idx_le,
    hs.idx_data, hs.polling, hs.rxb_empty, hs.rxb_so_far, fun hv => by cases hv⟩

/-- Settles O31: a step is the reset's, an instruction's or a microsecond's. -/
theorem everyStepKeepsSoundness : Obligations.EveryStepKeepsSoundness := by
  unfold Obligations.EveryStepKeepsSoundness
  intro s t hs h
  rcases step_next_exec h with ⟨-, rfl⟩ | ⟨-, i, valid, rest, h⟩ | ⟨-, rfl⟩
  · exact s.underReset_sound
  · exact (hs.taken valid rest).exec rfl h
  · exact hs.tick

end Sys2Proof.Machine
end

section
/-! PROOFS. The reset input: the block while it is asserted, the release, and the cut of whatever is in progress. -/

namespace Sys2Proof.Machine

/-! ### While `rst` is asserted -/

theorem State.rst_none_of_resetDue {s : State} (h : s.resetDue = false) : s.rst = none :=
  (State.resetDue_false.mp h).1

theorem State.resetDue_of_rst {s : State} {release : Time} (h : s.rst = some release) : s.resetDue = true := by
  simp [State.resetDue, h]

/-- An instruction that leaves `rst` asserted has been cut. -/
theorem exec_asAfterReset {i : Instr} {s t : State} (h : exec i s = .next t) (hs : s.rst = none)
    (ht : t.rst.isSome = true) : t.AsAfterReset := by
  have hrst : ¬t.rst = s.rst := fun heq => by simp [heq, hs] at ht
  rcases exec_carries h with hi | hcell | hcut
  · exact absurd (exec_command_keeps hi h).2.2.1 hrst
  · exact absurd hcell.rst hrst
  · exact hcut.after

/-- Settles O53: from an asserted state a step is the reset's; one that leaves `rst` asserted is the reset's or an
instruction that was cut. -/
theorem blockIsAsAfterResetWhileAsserted : Obligations.BlockIsAsAfterResetWhileAsserted := by
  unfold Obligations.BlockIsAsAfterResetWhileAsserted
  intro s t h
  rcases step_next_exec h with ⟨-, rfl⟩ | ⟨hr, i, valid, rest, h⟩ | ⟨hr, rfl⟩
  · obtain ⟨-, -, -, -, -, -, -, hvalid, hcmd, hprogram, -⟩ := s.underReset_frame
    exact ⟨fun _ => s.underReset_asAfterReset, fun _ => ⟨hvalid, hcmd, hprogram⟩⟩
  · have hnone := State.rst_none_of_resetDue hr
    refine ⟨fun hor => ?_, fun hsome => by simp [hnone] at hsome⟩
    have hsome : t.rst.isSome = true := by simpa [hnone] using hor
    exact exec_asAfterReset (s := s.taken valid rest) h hnone hsome
  · have hnone := State.rst_none_of_resetDue hr
    simp [hnone]

/-- `t` is `s` released from its reset at microsecond `time`. -/
structure State.ReleasedAt (s t : State) (time : Nat) : Prop where
  after : t.AsAfterReset
  rst : t.rst = none
  rstAt : t.rstAt = s.rstAt
  now : t.now.toNat = time
  cmdValid : t.cmdValid = s.cmdValid
  cmd : t.cmd = s.cmd
  program : t.program = s.program
  plat : t.plat = s.plat

/-- At the release, or where it is past, one step releases the block. -/
theorem step_release {s : State} {release : Time} (h : s.rst = some release) (hpast : release.toNat ≤ s.now.toNat) :
    ∃ t, step s = .next t ∧ s.ReleasedAt t s.now.toNat := by
  have hstep : s.underReset = { s.resetBlock with rst := none } := by simp [State.underReset, h, hpast]
  refine ⟨_, step_underReset (State.resetDue_of_rst h), s.underReset_asAfterReset, ?_, ?_, ?_, ?_, ?_, ?_, ?_⟩ <;>
    simp [hstep]

/-- Before the release a step lets a microsecond pass over the block. -/
theorem step_hold {s : State} {release : Time} (h : s.rst = some release) (hbefore : s.now.toNat < release.toNat) :
    step s = .next { s.resetBlock with now := s.now + 1 } := by
  rw [step_underReset (State.resetDue_of_rst h)]
  simp [State.underReset, h, Nat.not_le.mpr hbefore]

/-- The hold, microsecond by microsecond, and the release, by induction on the microseconds left. -/
theorem steps_release {n : Nat} {s : State} {release : Time} (h : s.rst = some release)
    (hn : release.toNat - s.now.toNat = n) :
    ∃ t, steps (n + 1) s = .next t ∧ s.ReleasedAt t (max s.now.toNat release.toNat) := by
  induction n generalizing s with
  | zero =>
    obtain ⟨t, hstep, hreleased⟩ := step_release h (by omega)
    exact ⟨t, (steps_one s).trans hstep, by rwa [max_eq_left (by omega)]⟩
  | succ n ih =>
    have hbefore : s.now.toNat < release.toNat := by omega
    have hnow : (s.now + 1).toNat = s.now.toNat + 1 := by bv_omega
    obtain ⟨t, hrun, hreleased⟩ := ih (s := { s.resetBlock with now := s.now + 1 }) h (by rw [hnow]; omega)
    refine ⟨t, (steps_succ (step_hold h hbefore)).trans hrun, ?_⟩
    have htime : max (s.now + 1).toNat release.toNat = max s.now.toNat release.toNat := by omega
    obtain ⟨hafter, hrst, hat, htnow, hvalid, hcmd, hprogram, hplat⟩ := hreleased
    exact ⟨hafter, hrst, hat, htnow.trans htime, hvalid, hcmd, hprogram, hplat⟩

/-- Settles O54: one step a microsecond and one for the release. -/
theorem assertedResetLastsUntilItsRelease : Obligations.AssertedResetLastsUntilItsRelease := by
  unfold Obligations.AssertedResetLastsUntilItsRelease
  intro s release h
  obtain ⟨t, hrun, hafter, hrst, hat, hnow, hvalid, hcmd, hprogram, hplat⟩ := steps_release h rfl
  exact ⟨_, t, le_refl _, hrun, hafter, hrst, hat, hnow, hvalid, hcmd, hprogram, hplat⟩

/-! ### An assertion that cuts a wait -/

/-- `t` is the block after the assertion `r`, with `rest` still to come, has been taken at its microsecond. -/
structure State.TakenAt (t : State) (plat : Platform) (r : ResetSpan) (rest : List ResetSpan) : Prop where
  after : t.AsAfterReset
  now : t.now = r.start
  rst : t.rst = some r.release
  rstAt : t.rstAt = rest
  plat : t.plat = plat

/-- Taking the assertion at its microsecond. -/
theorem State.takenAt_now {u : State} {r : ResetSpan} {rest : List ResetSpan} (hr : u.rstAt = r :: rest)
    (hnow : u.now = r.start) : u.takeReset.TakenAt u.plat r rest :=
  ⟨u.takeReset_asAfterReset, hnow, by simp [hr], by simp [hr], rfl⟩

/-- Taking the assertion once the clock has reached it. -/
theorem State.takenAt_advance {u : State} {r : ResetSpan} {rest : List ResetSpan} (hr : u.rstAt = r :: rest)
    (hlo : u.now.toNat ≤ r.start.toNat) :
    (u.advance (r.start.toNat - u.now.toNat)).takeReset.TakenAt u.plat r rest := by
  refine State.takenAt_now (u := u.advance (r.start.toNat - u.now.toNat)) hr (BitVec.eq_of_toNat_eq ?_)
  have hlt := r.start.isLt
  simp only [State.advance_now, BitVec.toNat_add, BitVec.toNat_ofNat]
  omega

theorem State.contended_mono {s : State} {n m : Nat} (h : s.contended n = false) (hm : m ≤ n) :
    s.contended m = false := by
  cases hd : s.dir with
  | input => exact State.contended_input m hd
  | output =>
    simp only [State.contended, hd] at h ⊢
    exact Env.drivenIn_mono h (le_refl _) (by omega)

/-- A wait during which an assertion comes is cut there. -/
theorem State.delay_andThen_cut {s : State} {d : Nat} {r : ResetSpan} {rest : List ResetSpan} (k : State → State)
    (hr : s.rstAt = r :: rest) (hlo : s.now.toNat ≤ r.start.toNat) (hhi : r.start.toNat < s.now.toNat + s.waitTime d)
    (hc : s.contended (r.start.toNat - s.now.toNat) = false) :
    ∃ t, (s.delay d).andThen k = .next t ∧ t.TakenAt s.plat r rest := by
  have hcut : s.countDraw.cutAfter (s.waitTime d) = some (r.start.toNat - s.now.toNat) := by
    simp [State.cutAfter, hr, hhi]
  have hcontended : s.countDraw.contended (r.start.toNat - s.now.toNat) = false := hc
  refine ⟨(s.countDraw.advance (r.start.toNat - s.now.toNat)).takeReset, ?_,
    State.takenAt_advance (u := s.countDraw) hr hlo⟩
  simp [State.delay, State.elapse, hcut, hcontended, Held.andThen]

/-! ### The same instruction with and without the assertions to come -/

/-- `s` with these assertions of `rst` to come. -/
def State.withSpans (s : State) (spans : List ResetSpan) : State := { s with rstAt := spans }

/-- How what comes of an instruction with the assertions `r :: rest` to come relates to what comes of it with none: up
to `r` it is the same, and past `r` it is cut there. -/
def CutOrSame (plat : Platform) (r : ResetSpan) (rest : List ResetSpan)
    (undisturbed disturbed : Host.Outcome State Fault Refusal) : Prop :=
  ∀ u, undisturbed = .next u →
    (r.start.toNat < u.now.toNat → ∃ t, disturbed = .next t ∧ t.TakenAt plat r rest) ∧
    (u.now.toNat ≤ r.start.toNat → disturbed = .next (u.withSpans (r :: rest)))

/-- A wait that ends ended uncontended. -/
theorem State.delay_andThen_uncontended {s u : State} {d : Nat} {k : State → State} (hr : s.rstAt = [])
    (h : (s.delay d).andThen k = .next u) :
    s.contended (s.waitTime d) = false ∧ u = k (s.countDraw.advance (s.waitTime d)) := by
  have hcut : s.countDraw.cutAfter (s.waitTime d) = none := State.cutAfter_none _ hr
  have hspan : s.countDraw.contended (s.waitTime d) = s.contended (s.waitTime d) := rfl
  cases hc : s.contended (s.waitTime d) with
  | true => simp [State.delay, State.elapse, hcut, hspan, hc, Held.andThen] at h
  | false =>
    simp only [State.delay, State.elapse, hcut, hspan, hc, Held.andThen, Bool.false_eq_true, if_false] at h
    exact ⟨rfl, (Host.Outcome.next.inj h).symm⟩

section
variable {s : State} {r : ResetSpan} {rest : List ResetSpan} (hr : s.rstAt = r :: rest)
  (hlo : s.now.toNat ≤ r.start.toNat)
include hr

theorem State.withSpans_self : (s.withSpans []).withSpans (r :: rest) = s := by
  rw [← hr]
  rfl

include hlo

/-- A wait and what follows it, when that takes no time and does not look at the assertions to come. -/
theorem State.delay_cutOrSame {d : Nat} {k : State → State} (hfits : s.ClockFits (s.waitTime d))
    (hnow : ∀ x, (k x).now = x.now) (hk : ∀ x spans, k (x.withSpans spans) = (k x).withSpans spans) :
    CutOrSame s.plat r rest (((s.withSpans []).delay d).andThen k) ((s.delay d).andThen k) := by
  intro u hu
  obtain ⟨hc, rfl⟩ := State.delay_andThen_uncontended rfl hu
  have hfree : s.contended (s.waitTime d) = false := hc
  have hend : (k ((s.withSpans []).countDraw.advance (s.waitTime d))).now.toNat = s.now.toNat + s.waitTime d := by
    rw [hnow]
    exact State.now_add hfits (le_refl _)
  refine ⟨fun hpast => ?_, fun hbefore => ?_⟩
  · have hhi : r.start.toNat < s.now.toNat + s.waitTime d := hpast.trans_eq hend
    exact State.delay_andThen_cut k hr hlo hhi (State.contended_mono hfree (by omega))
  · have hcut : s.countDraw.cutAfter (s.waitTime d) = none := by
      have hlate : ¬r.start.toNat < s.now.toNat + s.waitTime d := Nat.not_lt.mpr (hend.symm.trans_le hbefore)
      simp [State.cutAfter, hr, hlate]
    have hspan : s.countDraw.contended (s.waitTime d) = false := hfree
    have hsame : ((s.withSpans []).countDraw.advance (s.waitTime d)).withSpans (r :: rest) =
        s.countDraw.advance (s.waitTime d) := by
      rw [← hr]
      rfl
    simp only [State.delay, State.elapse, hcut, hspan, Held.andThen, Bool.false_eq_true, if_false]
    exact congrArg Host.Outcome.next ((congrArg k hsame.symm).trans (hk _ _))

end

theorem State.afterTxBit_withSpans (s : State) (spans : List ResetSpan) :
    (s.withSpans spans).afterTxBit = s.afterTxBit.withSpans spans := by
  by_cases hmore : s.idx.toNat < 7
  · rw [State.afterTxBit_more hmore, State.afterTxBit_more (s := s.withSpans spans) hmore]
    rfl
  · have hlast := Nat.le_of_not_lt hmore
    rw [State.afterTxBit_last hlast, State.afterTxBit_last (s := s.withSpans spans) hlast]
    rfl

theorem State.afterRxBit_withSpans (s : State) (v : Level) (spans : List ResetSpan) :
    (s.withSpans spans).afterRxBit v = (s.afterRxBit v).withSpans spans := by
  by_cases hmore : s.idx.toNat < 7
  · rw [State.afterRxBit_more v hmore, State.afterRxBit_more (s := s.withSpans spans) v hmore]
    rfl
  · have hlast := Nat.le_of_not_lt hmore
    rw [State.afterRxBit_last v hlast, State.afterRxBit_last (s := s.withSpans spans) v hlast]
    rfl

/-- Every wait of a micro-operation fits in a clock that fits the longest. -/
theorem State.ClockFits.waitTime {s u : State} {w : Word32} (hfits : s.ClockFits s.longestWait)
    (hnow : u.now = s.now) (hplat : u.plat = s.plat) : u.ClockFits (u.waitTime w.toNat) := by
  have hwait := s.le_longestWait (hplat ▸ u.waitTime_le w.toNat)
  unfold State.ClockFits at *
  rw [hnow]
  omega

/-- What takes no time and leaves the assertions to come alone is not cut. -/
theorem cutOrSame_instant {s v : State} {r : ResetSpan} {rest : List ResetSpan} (hlo : s.now.toNat ≤ r.start.toNat)
    (hr : v.rstAt = r :: rest) (hnow : v.now = s.now) :
    CutOrSame s.plat r rest (.next (v.withSpans [])) (.next v) := by
  intro u hu
  obtain rfl := Host.Outcome.next.inj hu
  refine ⟨fun hpast => ?_, fun _ => by rw [State.withSpans_self hr]⟩
  have hpast' : r.start.toNat < v.now.toNat := hpast
  rw [hnow] at hpast'
  omega

section
variable {s : State} {r : ResetSpan} {rest : List ResetSpan} (hr : s.rstAt = r :: rest)
  (hlo : s.now.toNat ≤ r.start.toNat) (hfits : s.ClockFits s.longestWait)
include hr hlo hfits

theorem startCell_cutOrSame : CutOrSame s.plat r rest (s.withSpans []).startCell s.startCell :=
  State.delay_cutOrSame (s := (s.mask.setDirection .output).setLevel .low) hr hlo
    (hfits.waitTime rfl rfl) (fun _ => rfl) (fun _ _ => rfl)

theorem highCell_cutOrSame : CutOrSame s.plat r rest (s.withSpans []).highCell s.highCell :=
  State.delay_cutOrSame (s := ((s.mask.setDirection .output).setLevel .high).unmask) hr hlo
    (hfits.waitTime rfl rfl) State.afterTxBit_now State.afterTxBit_withSpans

theorem lowCell_cutOrSame : CutOrSame s.plat r rest (s.withSpans []).lowCell s.lowCell :=
  State.delay_cutOrSame (s := ((s.mask.setLevel .low).setDirection .output).unmask) hr hlo
    (hfits.waitTime rfl rfl) State.afterTxBit_now State.afterTxBit_withSpans

theorem stopCell_cutOrSame : CutOrSame s.plat r rest (s.withSpans []).stopCell s.stopCell :=
  State.delay_cutOrSame (s := s.mask.setLevel .high) hr hlo
    (hfits.waitTime rfl rfl) (fun _ => rfl) (fun _ _ => rfl)

theorem alignCell_cutOrSame : CutOrSame s.plat r rest (s.withSpans []).alignCell s.alignCell :=
  State.delay_cutOrSame hr hlo (hfits.waitTime (w := alignDelay s.bp) rfl rfl)
    (fun _ => rfl) (fun _ _ => rfl)

theorem sampleCell_cutOrSame : CutOrSame s.plat r rest (s.withSpans []).sampleCell s.sampleCell :=
  State.delay_cutOrSame (s := (s.mask.setDirection .input).sampled.unmask) hr hlo
    (hfits.waitTime rfl rfl) (fun x => x.afterRxBit_now _)
    (fun x => x.afterRxBit_withSpans _)

theorem pollTurn_cutOrSame : CutOrSame s.plat r rest (s.withSpans []).pollTurn s.pollTurn := by
  have hread : (s.withSpans []).readLevel = s.readLevel := rfl
  have hexpired : (s.withSpans []).pollExpired = s.pollExpired := rfl
  simp only [State.pollTurn, hread, hexpired]
  cases s.readLevel with
  | low => exact cutOrSame_instant (v := { s.sampled with phase := .rAlign }) hlo hr rfl
  | high =>
    cases s.pollExpired with
    | true => exact cutOrSame_instant (v := { s.sampled with timedOut := true, phase := .rAlign }) hlo hr rfl
    | false =>
      exact State.delay_cutOrSame (s := s.sampled) hr hlo (hfits.waitTime (w := 1) rfl rfl) (fun _ => rfl)
        (fun _ _ => rfl)

end

/-- The next cell of a frame, before the first assertion to come is due. -/
theorem nextCell_cutOrSame {s : State} {r : ResetSpan} {rest : List ResetSpan} (hr : s.rstAt = r :: rest)
    (hrst : s.rst = none) (hlo : s.now.toNat < r.start.toNat) (hfits : s.ClockFits s.longestWait) :
    CutOrSame s.plat r rest (s.withSpans []).nextCell s.nextCell := by
  have hdue : s.resetDue = false := by simp [State.resetDue, hr, hrst, hlo]
  have hnone : (s.withSpans []).resetDue = false := State.resetDue_none hrst rfl
  cases hp : s.phase with
  | wStart =>
    rw [State.nextCell_wStart hdue hp, State.nextCell_wStart hnone hp]
    exact startCell_cutOrSame hr hlo.le hfits
  | wBit =>
    cases hbit : txBit s.txb s.idx with
    | high =>
      rw [State.nextCell_high hdue hp hbit, State.nextCell_high hnone hp hbit]
      exact highCell_cutOrSame hr hlo.le hfits
    | low =>
      rw [State.nextCell_low hdue hp hbit, State.nextCell_low hnone hp hbit]
      exact lowCell_cutOrSame hr hlo.le hfits
  | wStop =>
    rw [State.nextCell_wStop hdue hp, State.nextCell_wStop hnone hp]
    exact stopCell_cutOrSame hr hlo.le hfits
  | unbound | idle | rPoll | rAlign | rBit | faulted =>
    have hsame : s.nextCell = .next s := by simp [State.nextCell, hdue, hp]
    have hsame' : (s.withSpans []).nextCell = .next (s.withSpans []) := by
      have hphase : (s.withSpans []).phase = s.phase := rfl
      simp [State.nextCell, hnone, hphase, hp]
    rw [hsame, hsame']
    exact cutOrSame_instant hlo.le hr rfl

theorem nextCells_of_unbound {s : State} (hp : s.phase = .unbound) (k : Nat) : s.nextCells k = .next s := by
  induction k with
  | zero => rfl
  | succ k ih => rw [State.nextCells_succ (State.nextCell_unbound hp), ih]

/-- A cell that has been cut ends the frame. -/
theorem State.TakenAt.nextCells {s t : State} {plat : Platform} {r : ResetSpan} {rest : List ResetSpan} (k : Nat)
    (hcell : s.nextCell = .next t) (ht : t.TakenAt plat r rest) :
    ∃ t, s.nextCells (k + 1) = .next t ∧ t.TakenAt plat r rest :=
  ⟨t, (State.nextCells_succ hcell).trans (nextCells_of_unbound ht.after.1 k), ht⟩

/-- An assertion due at the beginning of a cell comes before the cell. -/
theorem nextCell_due {s : State} {r : ResetSpan} {rest : List ResetSpan} (hr : s.rstAt = r :: rest)
    (hrst : s.rst = none) (hnow : s.now = r.start) (hbusy : s.busy = true) :
    s.nextCell = .next s.takeReset ∧ s.takeReset.TakenAt s.plat r rest := by
  have hdue : s.resetDue = true := by simp [State.resetDue, hr, hnow]
  have hcell : s.nextCell = .next s.underReset := by simp [State.nextCell, hdue, hbusy]
  exact ⟨hcell.trans (by simp [State.underReset, hrst]), State.takenAt_now hr hnow⟩

theorem nextCell_of_not_busy {s : State} (h : s.busy = false) : s.nextCell = .next s := by
  cases hp : s.phase <;> simp_all [State.nextCell, State.busy, Phase.inTransfer]

/-- A frame during which an assertion comes is cut there, in the cell it falls into or before the next one. -/
theorem nextCells_cut {k : Nat} {s u : State} {r : ResetSpan} {rest : List ResetSpan} (hr : s.rstAt = r :: rest)
    (hrst : s.rst = none) (hlo : s.now.toNat ≤ r.start.toNat) (hfits : s.ClockFits (k * s.longestWait))
    (h : (s.withSpans []).nextCells k = .next u) (hpast : r.start.toNat < u.now.toNat) :
    ∃ t, s.nextCells k = .next t ∧ t.TakenAt s.plat r rest := by
  induction k generalizing s with
  | zero =>
    obtain rfl := Host.Outcome.next.inj h
    exact absurd hpast (Nat.not_lt.mpr hlo)
  | succ k ih =>
    have hsplit : (k + 1) * s.longestWait = s.longestWait + k * s.longestWait := by rw [Nat.succ_mul, Nat.add_comm]
    rw [hsplit] at hfits
    have hone : s.ClockFits s.longestWait := State.ClockFits_later (d := 0) hfits rfl (by omega)
    cases hcell : (s.withSpans []).nextCell with
    | fault f => simp [State.nextCells, hcell] at h
    | refused f => simp [State.nextCells, hcell] at h
    | next v =>
      rw [State.nextCells_succ hcell] at h
      obtain hbefore | hat := Nat.lt_or_eq_of_le hlo
      · obtain ⟨hcut, hsame⟩ := nextCell_cutOrSame hr hrst hbefore hone v hcell
        by_cases hv : r.start.toNat < v.now.toNat
        · obtain ⟨t, hstep, ht⟩ := hcut hv
          exact ht.nextCells k hstep
        · have hstep := hsame (Nat.le_of_not_lt hv)
          have hcarried := (nextCell_carries hcell).carries ⟨hrst, rfl⟩
          obtain ⟨d, hd, hnow⟩ := nextCell_within hcell
          have hspans : (v.withSpans (r :: rest)).withSpans [] = v := by
            rw [← show v.rstAt = [] from hcarried.rstAt]
            rfl
          have hplat : v.plat = s.plat := hcarried.plat
          have hlong : (v.withSpans (r :: rest)).longestWait = s.longestWait :=
            congrArg (fun plat : Platform => 2 ^ 32 + plat.jOpen) hplat
          have hnat : (v.withSpans (r :: rest)).now.toNat = s.now.toNat + d :=
            (congrArg BitVec.toNat hnow).trans (State.now_add hone hd)
          obtain ⟨t, hrun, ht⟩ := ih (s := v.withSpans (r :: rest)) rfl (hcarried.rst.trans hrst) (Nat.le_of_not_lt hv)
            (by rw [hlong]; exact State.ClockFits_later hfits hnat (Nat.add_le_add_right hd _))
            (by rw [hspans]; exact h)
          exact ⟨t, (State.nextCells_succ hstep).trans hrun, hplat ▸ ht⟩
      · cases hb : s.busy with
        | true =>
          obtain ⟨hstep, ht⟩ := nextCell_due hr hrst (BitVec.eq_of_toNat_eq hat) hb
          exact ht.nextCells k hstep
        | false =>
          obtain rfl : s.withSpans [] = v :=
            Host.Outcome.next.inj ((nextCell_of_not_busy (s := s.withSpans []) hb).symm.trans hcell)
          obtain ⟨t, hrun, ht⟩ := ih hr hrst hlo (State.ClockFits_later (d := 0) hfits rfl (by omega)) h
          exact ⟨t, (State.nextCells_succ (nextCell_of_not_busy hb)).trans hrun, ht⟩

/-- An instruction that would have passed the first assertion to come is cut there. -/
theorem exec_cut {i : Instr} {s u : State} {r : ResetSpan} {rest : List ResetSpan} (hr : s.rstAt = r :: rest)
    (hrst : s.rst = none) (hlo : s.now.toNat ≤ r.start.toNat) (hfits : s.ClockFits (10 * s.longestWait))
    (h : exec i (s.withSpans []) = .next u) (hpast : r.start.toNat < u.now.toNat) :
    ∃ t, exec i s = .next t ∧ t.TakenAt s.plat r rest := by
  have hone : s.ClockFits s.longestWait := State.ClockFits_later (d := 0) hfits rfl (by omega)
  have hcell : ∀ {p : Phase} {c : State → Host.Outcome State Fault Refusal}, s.phase = p →
      CutOrSame s.plat r rest (c (s.withSpans [])) (c s) → c (s.withSpans []) = .next u →
      ∃ t, s.inPhase p c = .next t ∧ t.TakenAt s.plat r rest := by
    intro p c hp hcut hu
    rw [State.inPhase_run c hp]
    exact (hcut u hu).1 hpast
  have hcommand : ¬IsCommand i := fun hi => by
    have hnow : u.now = s.now := (exec_command_keeps hi h).2.1
    rw [hnow] at hpast
    omega
  rcases exec_next h with ⟨pin, rfl, -⟩ | ⟨baud, rfl, -⟩ | ⟨byte, rfl, -⟩ | ⟨rfl, -⟩ | ⟨byte, rfl, hbyte, hp, hu⟩ |
    ⟨rfl, hp, hu⟩ | ⟨rfl, hp, hu⟩ | ⟨rfl, hp, hu⟩ | ⟨rfl, hp, hu⟩ | ⟨rfl, hp, hu⟩ | ⟨rfl, hp, hu⟩ | ⟨rfl, hp, hu⟩
  · exact absurd (.inl ⟨pin, rfl⟩) hcommand
  · exact absurd (.inr (.inl ⟨baud, rfl⟩)) hcommand
  · exact absurd (.inr (.inr (.inl ⟨byte, rfl⟩))) hcommand
  · exact absurd (.inr (.inr (.inr rfl))) hcommand
  · obtain rfl : s.txb = byte := hbyte
    rw [exec_frame (s := s) hp]
    exact nextCells_cut hr hrst hlo hfits hu hpast
  · exact hcell hp (startCell_cutOrSame hr hlo hone) hu
  · exact hcell hp (highCell_cutOrSame hr hlo hone) hu
  · exact hcell hp (lowCell_cutOrSame hr hlo hone) hu
  · exact hcell hp (stopCell_cutOrSame hr hlo hone) hu
  · exact hcell hp (pollTurn_cutOrSame hr hlo hone) hu
  · exact hcell hp (alignCell_cutOrSame hr hlo hone) hu
  · exact hcell hp (sampleCell_cutOrSame hr hlo hone) hu

/-! ### Reset at any microsecond (spec/70_reset_and_hazards.md R190) -/

/-- An assertion that is due is taken before anything else. -/
theorem step_due {s : State} {r : ResetSpan} {rest : List ResetSpan} (hrst : s.rst = none) (hr : s.rstAt = r :: rest)
    (hdue : r.start.toNat ≤ s.now.toNat) :
    ∃ t, step s = .next t ∧ t.AsAfterReset ∧ t.now = s.now ∧ t.rst = some r.release ∧ t.rstAt = rest ∧
      t.plat = s.plat := by
  have hreset : s.resetDue = true := by simp [State.resetDue, hr, hdue]
  have htaken : s.underReset = s.takeReset := by simp [State.underReset, hrst]
  refine ⟨_, step_underReset hreset, s.underReset_asAfterReset, ?_, ?_, ?_, ?_⟩ <;> simp [htaken, hr]

/-- A wait in a pin state nobody contends, its nominal time reaching past the assertion. -/
theorem State.delay_andThen_cut_free {s : State} {d : Nat} {r : ResetSpan} {rest : List ResetSpan}
    (k : State → State) (hr : s.rstAt = r :: rest) (hlo : s.now.toNat ≤ r.start.toNat)
    (hhi : r.start.toNat < s.now.toNat + d) (hfree : s.WireFree (r.start.toNat - s.now.toNat)) :
    ∃ t, (s.delay d).andThen k = .next t ∧ t.TakenAt s.plat r rest :=
  State.delay_andThen_cut k hr hlo (hhi.trans_le (Nat.add_le_add_left (s.le_waitTime d) _))
    (State.contended_false _ hfree)

/-- An assertion inside the hold of a cell, sent or sampled. -/
theorem exec_hold_cut {i : Instr} {p : Phase} {s : State} {r : ResetSpan} {rest : List ResetSpan}
    (hip : (i, p) ∈ [(Instr.start, Phase.wStart), (.bitw1, .wBit), (.bitw0, .wBit), (.stop, .wStop), (.bitr, .rBit)])
    (hp : s.phase = p) (hr : s.rstAt = r :: rest) (hlo : s.now.toNat ≤ r.start.toNat)
    (hhi : r.start.toNat < s.now.toNat + s.bp.toNat) (hfree : s.WireFree (r.start.toNat - s.now.toNat)) :
    ∃ t, exec i s = .next t ∧ t.TakenAt s.plat r rest := by
  simp only [List.mem_cons, Prod.mk.injEq, List.not_mem_nil, or_false] at hip
  obtain ⟨rfl, rfl⟩ | ⟨rfl, rfl⟩ | ⟨rfl, rfl⟩ | ⟨rfl, rfl⟩ | ⟨rfl, rfl⟩ := hip
  · rw [show exec .start s = s.startCell from State.inPhase_run _ hp]
    exact State.delay_andThen_cut_free (s := (s.mask.setDirection .output).setLevel .low) _ hr hlo hhi hfree
  · rw [show exec .bitw1 s = s.highCell from State.inPhase_run _ hp]
    exact State.delay_andThen_cut_free (s := ((s.mask.setDirection .output).setLevel .high).unmask) _ hr hlo hhi hfree
  · rw [show exec .bitw0 s = s.lowCell from State.inPhase_run _ hp]
    exact State.delay_andThen_cut_free (s := ((s.mask.setLevel .low).setDirection .output).unmask) _ hr hlo hhi hfree
  · rw [show exec .stop s = s.stopCell from State.inPhase_run _ hp]
    exact State.delay_andThen_cut_free (s := s.mask.setLevel .high) _ hr hlo hhi hfree
  · rw [show exec .bitr s = s.sampleCell from State.inPhase_run _ hp]
    exact State.delay_andThen_cut_free (s := (s.mask.setDirection .input).sampled.unmask) _ hr hlo hhi hfree

/-- An assertion inside ALIGN. -/
theorem exec_align_cut {s : State} {r : ResetSpan} {rest : List ResetSpan} (hp : s.phase = .rAlign)
    (hd : s.dir = .input) (hr : s.rstAt = r :: rest) (hlo : s.now.toNat ≤ r.start.toNat)
    (hhi : r.start.toNat < s.now.toNat + (alignDelay s.bp).toNat) :
    ∃ t, exec .align s = .next t ∧ t.TakenAt s.plat r rest := by
  rw [show exec .align s = s.alignCell from State.inPhase_run _ hp]
  exact State.delay_andThen_cut _ hr hlo (hhi.trans_le (Nat.add_le_add_left (s.le_waitTime _) _))
    (State.contended_input _ hd)

/-- Settles O40: due, inside a hold, inside ALIGN, and inside the time an instruction would have taken without it. -/
theorem resetAbandonsAnything : Obligations.ResetAbandonsAnything := by
  unfold Obligations.ResetAbandonsAnything
  refine ⟨fun s r rest hrst hr hdue => step_due hrst hr hdue, fun i p s r rest hip hp hr hlo hhi hfree => ?_,
    fun s r rest hp hd hr hlo hhi => ?_, fun i s u r rest hrst hr hfits hlo h hpast => ?_⟩
  · obtain ⟨t, ht, hafter, hnow, hrst, hat, hplat⟩ := exec_hold_cut hip hp hr hlo hhi hfree
    exact ⟨t, ht, hafter, hnow, hrst, hat, hplat⟩
  · obtain ⟨t, ht, hafter, hnow, hrst, hat, hplat⟩ := exec_align_cut hp hd hr hlo hhi
    exact ⟨t, ht, hafter, hnow, hrst, hat, hplat⟩
  · obtain ⟨t, ht, hafter, hnow, hrst, hat, hplat⟩ := exec_cut hr hrst hlo hfits h hpast
    exact ⟨t, ht, hafter, hnow, hrst, hat, hplat⟩

end Sys2Proof.Machine
end

section
/-! PROOFS. The commands: what an accepted one does, and every issue outside the contract. -/

namespace Sys2Proof.Machine

/-! ### Accepted commands -/

/-- Settles O1: the lookup succeeds and nobody else owns the pin, so that BIND completes. -/
theorem bindTakesThePin : Obligations.BindTakesThePin := by
  unfold Obligations.BindTakesThePin
  intro pin s hp hb hother hfail
  have hbind : exec (.bind pin) s = .next (({ s with pin := pin, bound := true }.setDirection .input).complete 0) :=
    (execBind_unbound pin hp hb).trans ((if_neg hfail).trans (if_neg hother))
  rw [hbind]
  simp [State.complete, State.respond]

/-- Settles O4: the bracket is that of division with remainder, and a smaller divisor gives no smaller quotient. -/
theorem bitPeriodBracketsTheBaud : Obligations.BitPeriodBracketsTheBaud := by
  unfold Obligations.BitPeriodBracketsTheBaud
  intro baud s t h
  obtain ⟨-, -, hpos, hmax, rfl⟩ := execConfigure_next h
  have hbp := bitPeriod_toNat baud
  refine ⟨?_, ?_, bitPeriod_pos hpos (by omega), bitPeriod_le baud, fun slower u hslow hle => ?_⟩
  · have hlow := Nat.div_mul_le_self 1000000 baud.toNat
    rwa [← hbp] at hlow
  · have hhigh := Nat.lt_mul_div_succ 1000000 hpos
    rwa [← hbp, Nat.mul_comm] at hhigh
  · obtain ⟨-, -, hslower, -, rfl⟩ := execConfigure_next hslow
    have hquotients := Nat.div_le_div_left (a := 1000000) hle hslower
    rwa [← hbp, ← bitPeriod_toNat slower] at hquotients

/-- Settles O5: neither sum nor product reaches `2^32`. -/
theorem derivedDurationsAreExact : Obligations.DerivedDurationsAreExact :=
  fun _ h => ⟨alignDelay_toNat h, timeout_toNat h⟩

/-- Settles O8: the gate of WRITE is open, and `W_START` is a position of a transfer. -/
theorem writeIsAccepted : Obligations.WriteIsAccepted := by
  unfold Obligations.WriteIsAccepted
  intro byte s hp hb hc
  have hgate : s.noTransfer = none := State.noTransfer_none.mpr ⟨hb, hp, hc⟩
  exact ⟨_, by simp only [exec, execWrite, hgate], rfl, rfl, rfl⟩

/-- Settles O19: the gate of READ is open, and `R_POLL` is a position of a transfer. -/
theorem readIsAccepted : Obligations.ReadIsAccepted := by
  unfold Obligations.ReadIsAccepted
  intro s hp hb hc
  have hgate : s.noTransfer = none := State.noTransfer_none.mpr ⟨hb, hp, hc⟩
  exact ⟨_, by simp only [exec, execRead, hgate], rfl, rfl, rfl⟩

/-! ### Refused commands -/

/-- A next state or a refusal, and no fault. -/
def Answers (o : Host.Outcome State Fault Refusal) : Prop := (∃ t, o = .next t) ∨ ∃ r, o = .refused r

theorem answers_next (t : State) : Answers (.next t) := .inl ⟨t, rfl⟩

theorem answers_refused (r : Refusal) : Answers (.refused r) := .inr ⟨r, rfl⟩

theorem answers_ite {p : Prop} [Decidable p] {o o' : Host.Outcome State Fault Refusal} (h : Answers o)
    (h' : Answers o') : Answers (if p then o else o') := by
  split
  · exact h
  · exact h'

/-- No command faults. -/
theorem exec_command_answers {i : Instr} (hi : IsCommand i) (s : State) : Answers (exec i s) := by
  rcases hi with ⟨pin, rfl⟩ | ⟨baud, rfl⟩ | ⟨byte, rfl⟩ | rfl
  · simp only [exec, execBind]
    cases s.notReady with
    | some r => exact answers_refused r
    | none =>
      exact answers_ite (answers_refused _) (answers_ite (answers_next _) (answers_ite (answers_refused _)
        (answers_next _)))
  · simp only [exec, execConfigure]
    cases s.notIdle with
    | some r => exact answers_refused r
    | none => exact answers_ite (answers_refused _) (answers_ite (answers_refused _) (answers_next _))
  · simp only [exec, execWrite]
    cases s.noTransfer with
    | some r => exact answers_refused r
    | none => exact answers_next _
  · simp only [exec, execRead]
    cases s.noTransfer with
    | some r => exact answers_refused r
    | none => exact answers_next _

/-- Where a command can give no next state it is refused. -/
theorem exec_command_refused {i : Instr} {s : State} (hi : IsCommand i) (h : ∀ t, exec i s ≠ .next t) :
    ∃ r, exec i s = .refused r :=
  (exec_command_answers hi s).resolve_left fun ⟨t, ht⟩ => h t ht

theorem isCommand_bind (pin : PinId) : IsCommand (.bind pin) := .inl ⟨pin, rfl⟩
theorem isCommand_configure (baud : Word32) : IsCommand (.configure baud) := .inr (.inl ⟨baud, rfl⟩)
theorem isCommand_write (byte : Byte) : IsCommand (.write byte) := .inr (.inr (.inl ⟨byte, rfl⟩))
theorem isCommand_read : IsCommand .read := .inr (.inr (.inr rfl))

/-- CONFIGURE, WRITE and READ need a bound and idle block (spec/60_exceptions.md R166 RF1, RF2, RF4). -/
theorem exec_refused_unless_idle {s : State} (h : ¬(s.bound = true ∧ s.phase = .idle)) :
    (∀ baud, ∃ r, exec (.configure baud) s = .refused r) ∧ (∀ byte, ∃ r, exec (.write byte) s = .refused r) ∧
      ∃ r, exec .read s = .refused r := by
  refine ⟨fun baud => exec_command_refused (isCommand_configure baud) fun t ht => ?_,
    fun byte => exec_command_refused (isCommand_write byte) fun t ht => ?_,
    exec_command_refused isCommand_read fun t ht => ?_⟩
  · obtain ⟨hb, hp, -⟩ := execConfigure_next ht
    exact h ⟨hb, hp⟩
  · obtain ⟨hb, hp, -⟩ := execWrite_next ht
    exact h ⟨hb, hp⟩
  · obtain ⟨hb, hp, -⟩ := execRead_next ht
    exact h ⟨hb, hp⟩

/-- WRITE and READ need a configured block (spec/60_exceptions.md R166 RF5). -/
theorem exec_refused_unless_configured {s : State} (h : s.configured = false) :
    (∀ byte, ∃ r, exec (.write byte) s = .refused r) ∧ ∃ r, exec .read s = .refused r := by
  refine ⟨fun byte => exec_command_refused (isCommand_write byte) fun t ht => ?_,
    exec_command_refused isCommand_read fun t ht => ?_⟩
  · obtain ⟨-, -, hc, -⟩ := execWrite_next ht
    simp [h] at hc
  · obtain ⟨-, -, hc, -⟩ := execRead_next ht
    simp [h] at hc

/-- BIND needs an unbound block (spec/60_exceptions.md R166 RF1, RF2, RF3). -/
theorem execBind_refused_unless_unbound (pin : PinId) {s : State} (h : ¬(s.phase = .unbound ∧ s.bound = false)) :
    ∃ r, exec (.bind pin) s = .refused r := by
  refine exec_command_refused (isCommand_bind pin) fun t ht => ?_
  obtain ⟨hp, hb, -⟩ := execBind_next ht
  exact h ⟨hp, hb⟩

/-! ### A command presented to a ready block (spec/20_memory.md R62) -/

theorem State.cmdReady_iff {s : State} : s.cmdReady = true ↔ s.busy = false ∧ s.phase ≠ .faulted := by
  simp [State.cmdReady]

/-- A step runs the word at the port of a ready block. -/
theorem step_runs_port {s : State} (hr : s.resetDue = false) (hready : s.cmdReady = true) (hv : s.cmdValid = true) :
    step s = runCode (.cmd s.cmd) { s with cmdValid := false, rspValid := false } := by
  obtain ⟨hb, hp⟩ := State.cmdReady_iff.mp hready
  have hselected : s.selected = none := (State.selected_none_iff s).mpr hb
  simp [step, hr, State.fetch, hselected, State.presented, hv, hp]

/-- With nothing at its port a ready block runs the head of the caller's program once it is due. -/
theorem step_runs_program {s : State} {head : Issue} {rest : List Issue} (hr : s.resetDue = false)
    (hready : s.cmdReady = true) (hv : s.cmdValid = false) (hprogram : s.program = head :: rest)
    (hdue : head.due.toNat ≤ s.now.toNat) :
    step s = runCode (.cmd head.word) { s with program := rest, rspValid := false } := by
  obtain ⟨hb, hp⟩ := State.cmdReady_iff.mp hready
  have hselected : s.selected = none := (State.selected_none_iff s).mpr hb
  simp [step, hr, State.fetch, hselected, State.presented, hv, hprogram, hdue, hp]

/-- A step of an undisturbed transfer runs the code its position selects. -/
theorem step_runs_selected {s : State} {c : Code} (hr : s.resetDue = false) (hv : s.cmdValid = false)
    (hc : s.selected = some c) : step s = runCode c s.endPulse := by
  simp [step, hr, State.fetch, hc, hv]

theorem runCode_ok {c : Code} {i : Instr} (h : decode c = .ok i) (s : State) : runCode c s = exec i s := by
  simp [runCode, h]

/-- A word with a nonzero reserved bit is no instruction (spec/30_encoding.md R80 case a). -/
theorem runCode_reserved {w : CmdWord}
    (h : (cmdOp w = 0#2 ∨ cmdOp w = 2#2) ∧ argReserved (cmdArg w) ≠ 0 ∨ cmdOp w = 3#2 ∧ cmdArg w ≠ 0) (s : State) :
    runCode (.cmd w) s = .refused .reservedBits := by
  have hdecode : decode (.cmd w) = .error .reservedBits := by
    rcases h with ⟨hop | hop, hres⟩ | ⟨hop, harg⟩
    · simp only [decode, decodeCmd, hop, if_true, if_neg hres]
    · simpa [decode, decodeCmd, hop] using hres
    · simpa [decode, decodeCmd, hop] using harg
  simp [runCode, hdecode, refusalOfDecodeError]

/-- Settles O6: a reserved bit stops the decoder; every other issue fails a premise that an accepted one meets. -/
theorem issuesOutsideTheContractAreRefused : Obligations.IssuesOutsideTheContractAreRefused := by
  unfold Obligations.IssuesOutsideTheContractAreRefused
  refine ⟨fun w s hr hready hw => ⟨?_, ?_⟩, fun baud s h => execConfigure_refused s h, fun pin s hb => ?_,
    fun s hb => ?_, fun s hc => exec_refused_unless_configured hc, fun s h => ⟨fun pin => ?_, ?_⟩⟩
  · rintro hv rfl
    rw [step_runs_port hr hready hv, runCode_reserved hw]
  · rintro head rest hv hprogram rfl hdue
    rw [step_runs_program hr hready hv hprogram hdue, runCode_reserved hw]
  · exact execBind_refused_unless_unbound pin fun ⟨_, h⟩ => by simp [hb] at h
  · exact exec_refused_unless_idle fun ⟨h, _⟩ => by simp [hb] at h
  · refine execBind_refused_unless_unbound pin fun ⟨hp, _⟩ => ?_
    simp [State.busy, hp, Phase.inTransfer] at h
  · refine exec_refused_unless_idle fun ⟨_, hp⟩ => ?_
    simp [State.busy, hp, Phase.inTransfer] at h

/-! ### Refusals by name (spec/60_exceptions.md R166) -/

theorem State.notReady_idle {s : State} (hp : s.phase = .idle) : s.notReady = none :=
  State.notReady_none.mpr (by simp [State.busy, hp, Phase.inTransfer])

theorem State.notIdle_unbound {s : State} (hp : s.phase = .unbound) (hb : s.bound = false) :
    s.notIdle = some .notBound := by
  have hready : s.notReady = none := State.notReady_none.mpr (by simp [State.busy, hp, Phase.inTransfer])
  simp [State.notIdle, hready, hb]

theorem State.noTransfer_unbound {s : State} (hp : s.phase = .unbound) (hb : s.bound = false) :
    s.noTransfer = some .notBound := by simp only [State.noTransfer, State.notIdle_unbound hp hb]

theorem State.noTransfer_unconfigured {s : State} (hp : s.phase = .idle) (hb : s.bound = true)
    (hc : s.configured = false) : s.noTransfer = some .notConfigured := by
  have hidle : s.notIdle = none := State.notIdle_none.mpr ⟨hb, hp⟩
  simp [State.noTransfer, hidle, hc]

/-- Settles O7: each gate answers its own name once those before it are open. -/
theorem refusalsAnswerByName : Obligations.RefusalsAnswerByName := by
  unfold Obligations.RefusalsAnswerByName
  refine ⟨fun pin s hp hb => ?_, fun baud byte s hp hb => ⟨?_, ?_, ?_⟩, fun byte s hp hb hc => ⟨?_, ?_⟩,
    fun s hp hb => ?_, fun baud s hp hb hbaud => ?_, fun pin s hp hb hfail hother => ?_⟩
  · simp [exec, execBind, State.notReady_idle hp, hb]
  · simp only [exec, execConfigure, State.notIdle_unbound hp hb]
  · simp only [exec, execWrite, State.noTransfer_unbound hp hb]
  · simp only [exec, execRead, State.noTransfer_unbound hp hb]
  · simp only [exec, execWrite, State.noTransfer_unconfigured hp hb hc]
  · simp only [exec, execRead, State.noTransfer_unconfigured hp hb hc]
  · simp [exec, execConfigure, State.notIdle_none.mpr ⟨hb, hp⟩, Config.baudMin]
  · have hmin : ¬baud.toNat < Config.baudMin := by
      unfold Config.baudMin
      omega
    have hmax : Config.baudMax < baud.toNat := hbaud
    simp only [exec, execConfigure, State.notIdle_none.mpr ⟨hb, hp⟩, if_neg hmin, if_pos hmax]
  · exact (execBind_unbound pin hp hb).trans ((if_neg hfail).trans (if_pos hother))

end Sys2Proof.Machine
end

section
/-! PROOFS. What a step does at each kind of position, and that nothing but a reset leaves `FAULTED`. -/

namespace Sys2Proof.Machine

/-! ### Positions and their instructions -/

/-- Settles O46: by the position, and bit by bit. -/
theorem statusAndReady : Obligations.StatusAndReady := by
  unfold Obligations.StatusAndReady
  refine fun s => ⟨Phase.inTransfer_iff, State.cmdReady_iff, ?_⟩
  rw [State.status]
  cases s.timedOut <;> cases s.cfgf <;> cases s.busy <;> decide

/-- Settles O42: the word at the port, the head of the program, or the selected code is decoded and run. -/
theorem stepRunsTheDecodedInstruction : Obligations.StepRunsTheDecodedInstruction := by
  unfold Obligations.StepRunsTheDecodedInstruction
  refine ⟨fun s i hr hready hv hd => step_command hr hready hv hd,
    fun s i head rest hr hready hv hprogram hdue hd => ?_, fun s c i hr hv hc hd => ?_⟩
  · rw [step_runs_program hr hready hv hprogram hdue, runCode_ok hd]
  · rw [step_runs_selected hr hv hc, runCode_ok hd]
    rfl

/-- Settles O43: a busy position selects a code, and its instruction is the one `State.current` names. -/
theorem positionSelectsTheMicroOperation : Obligations.PositionSelectsTheMicroOperation := by
  unfold Obligations.PositionSelectsTheMicroOperation
  intro s hb
  have hdecodes := s.selected_decodes
  cases hc : s.selected with
  | none => simp [(State.selected_none_iff s).mp hc] at hb
  | some c =>
    rw [hc] at hdecodes
    obtain ⟨i, hi, hd⟩ := hdecodes
    refine ⟨c, i, rfl, hd, ?_⟩
    unfold State.current at hi
    refine ⟨fun hp => ?_, fun hp => ?_, fun hp => ?_, fun hp => ?_, fun hp => ?_, fun hp => ?_⟩ <;>
      simp only [hp, Option.some.injEq] at hi
    · cases hw : s.wholeFrame <;> simp [hw] at hi ⊢ <;> exact hi.symm
    all_goals exact hi.symm

/-- Settles O44: a command at the port of a busy block is looked at before the code its position selects. -/
theorem overlappingCommandIsRefused : Obligations.OverlappingCommandIsRefused := by
  unfold Obligations.OverlappingCommandIsRefused
  intro s hb hv hr
  cases hc : s.selected with
  | none => simp [(State.selected_none_iff s).mp hc] at hb
  | some c => simp [step, hr, State.fetch, hc, hv]

/-- Settles O45: the four operation codes are commands, and every micro-operation looks at its position first. -/
theorem microOperationsAreNotCallable : Obligations.MicroOperationsAreNotCallable := by
  unfold Obligations.MicroOperationsAreNotCallable
  have hframe : ∀ {s : State} {b : Byte}, s.phase ≠ .wStart → execFrame b s = .refused .notCallable := fun hp => by
    rw [execFrame, State.inPhase_refused _ hp, ite_self]
  exact ⟨fun w i h => decodeCmd_ok h, fun s =>
    ⟨fun hp => ⟨State.inPhase_refused _ hp, fun b => hframe hp⟩,
      fun hp => ⟨State.inPhase_refused _ hp, State.inPhase_refused _ hp⟩,
      fun hp => State.inPhase_refused _ hp, fun hp => State.inPhase_refused _ hp,
      fun hp => State.inPhase_refused _ hp, fun hp => State.inPhase_refused _ hp, fun b hb => if_neg hb⟩⟩

/-! ### Nothing to do -/

theorem State.presented_none {s : State} (h : s.NothingPresented) : s.presented = none := by
  obtain ⟨hv, hprogram⟩ := h
  unfold State.presented
  rw [if_neg (by simp [hv])]
  cases hp : s.program with
  | nil => rfl
  | cons head rest => exact if_neg (Nat.not_le.mpr (hprogram head rest hp))

/-- With no transfer in progress and nothing presented a microsecond passes, or the run of a `FAULTED` block has
ended. -/
theorem step_nothing {s : State} (hb : s.busy = false) (hr : s.resetDue = false) (h : s.NothingPresented) :
    step s = if s.phase = .faulted ∧ s.rstAt = [] then .fault .configurationFailure else .next s.tick := by
  have hselected : s.selected = none := (State.selected_none_iff s).mpr hb
  have hpresented : s.endPulse.presented = none := State.presented_none (s := s.endPulse) h
  by_cases hended : s.phase = .faulted ∧ s.rstAt = []
  · simp [step, hr, State.fetch, hselected, hpresented, hended]
  · simp [step, hr, State.fetch, hselected, hpresented, hended]

/-- Settles O41: `tick` writes the clock and ends the pulse. -/
theorem idleChangesOnlyTheClock : Obligations.IdleChangesOnlyTheClock := by
  unfold Obligations.IdleChangesOnlyTheClock
  intro s hp hr hnothing
  have hb : s.busy = false := by rcases hp with hp | hp <;> simp [State.busy, hp, Phase.inTransfer]
  have hnotFaulted : ¬(s.phase = .faulted ∧ s.rstAt = []) := by rcases hp with hp | hp <;> simp [hp]
  rw [step_nothing hb hr hnothing, if_neg hnotFaulted]
  rfl

/-! ### `FAULTED` (spec/60_exceptions.md R171) -/

/-- A command presented to a `FAULTED` block is refused. -/
theorem step_faulted_presented {s : State} {w : CmdWord} {u : State} (hp : s.phase = .faulted)
    (hr : s.resetDue = false) (hpresented : s.endPulse.presented = some (w, u)) : step s = .refused .faulted := by
  have hselected : s.selected = none := by simp [State.selected, hp]
  simp [step, hr, State.fetch, hselected, hpresented, hp]

/-- Settles O39: a `FAULTED` block is given a reset, a command or nothing; only the reset leaves it. -/
theorem onlyResetLeavesFaulted : Obligations.OnlyResetLeavesFaulted := by
  unfold Obligations.OnlyResetLeavesFaulted
  intro s hp
  have hb : s.busy = false := by simp [State.busy, hp, Phase.inTransfer]
  refine ⟨fun hr => ?_, fun hr hv => ?_, fun head rest hr hv hprogram hdue => ?_, fun hr hnothing => ?_,
    fun t h => ?_⟩
  · obtain ⟨-, -, -, -, hcfgf, -⟩ := s.underReset_frame
    exact ⟨step_underReset hr, s.underReset_phase, hcfgf⟩
  · exact step_faulted_presented hp hr (if_pos hv)
  · exact step_faulted_presented (w := head.word) (u := { s.endPulse with program := rest }) hp hr
      (by simp [State.presented, hv, hprogram, hdue])
  · rw [step_nothing hb hr hnothing]
    simp only [hp, true_and, State.tick, State.advance, State.endPulse]
    rfl
  · rcases step_next h with ⟨hr, rfl⟩ | ⟨-, i, hi, -⟩ | ⟨-, -, hnot, -⟩ | ⟨-, -, rfl⟩
    · exact .inr ⟨hr, rfl⟩
    · simp [State.current, hp] at hi
    · exact absurd hp hnot
    · exact .inl ⟨hp, rfl⟩

/-- Settles O33: the reset state as it is written. -/
theorem resetValues : Obligations.ResetValues := by
  unfold Obligations.ResetValues
  decide

end Sys2Proof.Machine
end

section
/-! PROOFS. The pin register space, the line, a DELAY, and one turn of POLL. -/

namespace Sys2Proof.Machine

/-- Settles O47: `memRead` and `memWrite` location by location. -/
theorem pinRegisterSpace : Obligations.PinRegisterSpace := by
  unfold Obligations.PinRegisterSpace
  refine ⟨fun s t r q v h hq => State.memRead_memWrite h hq, fun s v => rfl, fun s d => ⟨?_, rfl⟩,
    fun s l => ⟨?_, rfl⟩, fun s => rfl⟩
  · rw [State.memWrite, Dir.ofBit_bit]
  · rw [State.memWrite, Level.ofBit_bit]

/-- Settles O48: the line by the direction of the pin. -/
theorem lineFollowsTheDriverOrTheEnvironment : Obligations.LineFollowsTheDriverOrTheEnvironment := by
  unfold Obligations.LineFollowsTheDriverOrTheEnvironment
  refine fun s => ⟨fun hd hfree => ?_, fun hd => State.readLevel_input hd, fun hd l => ?_,
    fun l hfree => wireLevel_output l hfree⟩
  · rw [State.line, hd]
    exact wireLevel_output _ hfree
  · exact (State.readLevel_input (s := s.setLevel l) hd).trans (State.readLevel_input hd).symm

/-- Settles O49: the wait is the time of DELAY and one draw. -/
theorem delayLastsItsTime : Obligations.DelayLastsItsTime := by
  unfold Obligations.DelayLastsItsTime
  intro s d hr hfree
  obtain ⟨j, hj, hwait⟩ := s.waitTime_eq_add d
  refine ⟨j, hj, fun him => ?_, ?_⟩
  · rw [State.waitTime_masked d him] at hwait
    omega
  · have hspan : s.WireFree (s.waitTime d) := State.WireFree_mono hfree (s.waitTime_le d)
    rw [State.delay_done hr (State.contended_false _ hspan), hwait]
    rfl

/-- Settles O20: level first, then the timeout, then a wait of `POLL_STEP`. -/
theorem pollTurnEffect : Obligations.PollTurnEffect := by
  unfold Obligations.PollTurnEffect
  intro s hp hd hr
  have hcell : exec .poll s = s.pollTurn := State.inPhase_run State.pollTurn hp
  have hread : s.readLevel = s.plat.env.levelAt s.now.toNat := State.readLevel_input hd
  have hsampled : ∀ l, s.readLevel = l → s.sampled = { s with trace := ⟨s.now, .sample l⟩ :: s.trace } := by
    rintro _ rfl
    rfl
  refine ⟨fun hl => ?_, fun hl ht => ?_, fun hl ht => ?_⟩ <;> rw [hcell] <;> rw [← hread] at hl
  · rw [State.pollTurn_low hl, hsampled _ hl]
  · rw [State.pollTurn_expired hl (decide_eq_true ht), hsampled _ hl]
  · have hearly : s.pollExpired = false := decide_eq_false (Nat.not_le.mpr ht)
    refine ⟨s.drawn (if s.im then Config.jMasked else s.plat.jOpen), State.drawn_le _ _, ?_⟩
    rw [State.pollTurn_waits hr hd hl hearly, hsampled _ hl]
    rfl

end Sys2Proof.Machine
end
